-- ==== Sys2Proof/Word.lean ====
section
/-!
DEFINITION. The words of R2FFT-DN: registers, command words, samples and binary64 patterns, as bit vectors, because
the spec treats each of them as bits (10_state.md R20, R33, R34; 40_numerics.md R65).
-/

namespace Sys2Proof

/-- A binary64 value is a 64-bit pattern (40 R65). -/
abbrev Binary64 := BitVec 64

/-- An integer register keeps 32 bits (10 R20, R32). -/
abbrev Reg32 := BitVec 32

/-- A command word: `OPC` in bits 7:0, `RSV` in bits 31:8 (30 R55). -/
abbrev CmdWord := BitVec 32

/-- One element of `SMP`: a 32-bit two's-complement integer (10 R33). -/
abbrev Sample := BitVec 32

/-- Coefficient `i`, the pair `(RE[i], IM[i])` (10 R35; the spec's glossary calls it a bin). -/
structure Bin where
  re : Binary64
  im : Binary64
  deriving DecidableEq, Repr

end Sys2Proof
end

