-- ==== Sys2Proof/Config.lean ====
section
/-!
DEFINITION. What is fixed for one block (the parameters of 00_scope.md R6 and R7, which "a model takes as an argument") and
the free values (93_implementation_defined.md U1, U2, U3, U11). The parameters are plain data carried by State, so that a
statement about every state holds for every block; the free values are opaque constants, of which nothing can be proved.
-/

namespace Sys2Proof

/-- `ROUND_TIES` (00 R7, 40 R80): the tie rule of re-quantization. -/
inductive TieRule where
  | away
  | even
  deriving DecidableEq, Repr

/-- The name of an admissible pair of functions `COS`, `SIN` (40 R78). -/
inductive Trig where
  /-- The spec's default instantiation: correct rounding. -/
  | correctlyRounded
  /-- Any other admissible pair: a free value, held only to TRIG_ZERO, TRIG_FINITE and TRIG_PURE. -/
  | other (n : Nat)
  deriving DecidableEq, Repr

/-- How the sign and payload of a NaN result come about (40 R75 lets a model "draw them freely or fix any quiet NaN"). -/
inductive NanRule where
  /-- A free value, of the operation and its operands. -/
  | drawn
  /-- The same sign (bit 51) and payload (bits 50:0) for every NaN result. -/
  | fixed (bits : BitVec 52)
  deriving DecidableEq, Repr

/-- The operations that can make a NaN (40 R68 to R72). -/
inductive NanOp where
  | add
  | sub
  | mul
  | div
  | sqrt
  deriving DecidableEq, Repr

/-- The parameters of one block. -/
structure Config where
  /-- `CAPLOG2` (00 R6): `0 <= CAPLOG2 <= 30`, and each memory has `2^CAPLOG2` elements. -/
  caplog2 : Fin 31
  ties : TieRule
  trig : Trig
  nan : NanRule
  deriving DecidableEq, Repr

/-- U11: the cosine of the instantiation `n`, before TRIG_ZERO and TRIG_FINITE are imposed. Free value (log 6). -/
opaque Config.freeCos : Nat → Binary64 → Binary64
/-- U11: the sine of the instantiation `n`, before TRIG_ZERO and TRIG_FINITE are imposed. Free value (log 6). -/
opaque Config.freeSin : Nat → Binary64 → Binary64
/-- U1: sign and payload of the NaN that an operation gives on two operands. Free value (log 7). -/
opaque Config.freeNan : NanOp → Binary64 → Binary64 → BitVec 52
/-- U2: element `i` of `SMP` under the draw `d`. Free value (log 8). -/
opaque Config.freeSmp : Nat → Nat → BitVec 32
/-- U2, U3: element `i` of `RE` under the draw `d`. Free value (log 8). -/
opaque Config.freeRe : Nat → Nat → BitVec 64
/-- U2, U3: element `i` of `IM` under the draw `d`. Free value (log 8). -/
opaque Config.freeIm : Nat → Nat → BitVec 64
/-- U3: `LEN` after a late NonFinite, under the draw `d`. Free value (log 10). -/
opaque Config.freeLen : Nat → Reg32
/-- U3: `OLEN` after a late NonFinite, under the draw `d`. Free value (log 10). -/
opaque Config.freeOlen : Nat → Reg32
/-- U3: `MAXMAG` after a late NonFinite, under the draw `d`. Free value (log 10). -/
opaque Config.freeMaxmag : Nat → Binary64
/-- U3: `THR` after a late NonFinite, under the draw `d`. Free value (log 10). -/
opaque Config.freeThr : Nat → Binary64

end Sys2Proof
end

