-- ==== Sys2Proof/Syntax.lean ====
section
/-!
DEFINITION. The commands of the block (30_encoding.md R56), the accesses of its host port (20_memory.md R44) and the events
that move it (00_scope.md R9, 70_reset_and_hazards.md R156).
-/

namespace Sys2Proof

/-- The 14 commands, one constructor per row of spec/opcode_table.json. No command has an operand (30 R59). -/
inductive Instr where
  | nop
  | srst
  | toflt
  | clrim
  | zpad
  | fftrzp
  | fft
  | ifft
  | magmax
  | thrset
  | gate
  | trunc
  | quant
  | denoise
  deriving DecidableEq, Repr

/-- The four address spaces (20 R40). -/
inductive Space where
  | reg
  | smp
  | re
  | im
  deriving DecidableEq, Repr

/-- `HostRead(space, index)` and `HostWrite(space, index, value)` (20 R44): 64-bit values for `REG`, `RE`, `IM`, 32-bit
values for `SMP`. -/
inductive Access where
  | readReg (i : Nat)
  | writeReg (i : Nat) (v : BitVec 64)
  | readSmp (i : Nat)
  | writeSmp (i : Nat) (v : BitVec 32)
  | readRe (i : Nat)
  | writeRe (i : Nat) (v : BitVec 64)
  | readIm (i : Nat)
  | writeIm (i : Nat) (v : BitVec 64)
  deriving DecidableEq, Repr

/-- The space an access addresses. -/
def Access.space : Access → Space
  | .readReg _ => .reg
  | .writeReg _ _ => .reg
  | .readSmp _ => .smp
  | .writeSmp _ _ => .smp
  | .readRe _ => .re
  | .writeRe _ _ => .re
  | .readIm _ => .im
  | .writeIm _ _ => .im

/-- The index an access addresses. -/
def Access.index : Access → Nat
  | .readReg i => i
  | .writeReg i _ => i
  | .readSmp i => i
  | .writeSmp i _ => i
  | .readRe i => i
  | .writeRe i _ => i
  | .readIm i => i
  | .writeIm i _ => i

/-- One indivisible event (00 R9): a host access (a write of `CMD` is a command's acceptance), the engine's turn (a command's
completion when one is accepted), or a hardware reset (70 R156). -/
inductive Event where
  | access (a : Access)
  | engine
  | reset
  deriving DecidableEq, Repr

end Sys2Proof
end

