-- ==== Sys2Proof/WellFormed.lean ====
section
/-!
DEFINITION. Which instructions and host accesses are well formed. A command carries no operand (30_encoding.md R59), so every
command is; an access is when its index addresses a location of its space (20_memory.md R40, R43).
-/

namespace Sys2Proof

/-- No command has an operand that could be ill formed (30 R59). -/
def Instr.wf : Instr → Bool
  | .nop => true
  | .srst => true
  | .toflt => true
  | .clrim => true
  | .zpad => true
  | .fftrzp => true
  | .fft => true
  | .ifft => true
  | .magmax => true
  | .thrset => true
  | .gate => true
  | .trunc => true
  | .quant => true
  | .denoise => true

/-- The number of elements of a space (20 R40), `cap` being `CAP`. -/
def Space.size (cap : Nat) : Space → Nat
  | .reg => 16
  | .smp => cap
  | .re => cap
  | .im => cap

/-- The index addresses a location (20 R43). -/
def Access.wf (cap : Nat) (a : Access) : Bool :=
  decide (a.index < a.space.size cap)

end Sys2Proof
end

