-- ==== Sys2Proof/Decode.lean ====
section
/-!
DEFINITION. Command words to commands and back (30_encoding.md R55, R56, R60, R61). Total: a word that selects no command is
rejected by name.
-/

namespace Sys2Proof

/-- Why a word selects no command (30 R60, R61). -/
inductive DecodeError where
  /-- `RSV` (bits 31:8) is not 0. -/
  | reservedBits (w : CmdWord)
  /-- `RSV` is 0 and `OPC` is none of the 14 values. -/
  | reservedOpcode (opc : BitVec 8)
  deriving DecidableEq, Repr

/-- Field `OPC`, bits 7:0 (30 R55). -/
def opcField (w : CmdWord) : BitVec 8 := w.extractLsb' 0 8

/-- Field `RSV`, bits 31:8 (30 R55). -/
def rsvField (w : CmdWord) : BitVec 24 := w.extractLsb' 8 24

/-- The opcode map of 30 R56: `OPC` and the command it selects. -/
def opcodeMap : List (BitVec 8 × Instr) :=
  [ (0x00#8, .nop), (0x01#8, .srst),
    (0x10#8, .toflt), (0x11#8, .clrim), (0x12#8, .zpad), (0x13#8, .fftrzp),
    (0x20#8, .fft), (0x21#8, .ifft),
    (0x30#8, .magmax), (0x31#8, .thrset), (0x32#8, .gate),
    (0x40#8, .trunc), (0x41#8, .quant),
    (0x50#8, .denoise) ]

/-- The command an opcode selects, looked up in a map. -/
def lookupOpcode : List (BitVec 8 × Instr) → BitVec 8 → Option Instr
  | [], _ => none
  | (o, i) :: rest, opc => if o = opc then some i else lookupOpcode rest opc

/-- A word selects a command exactly when `RSV = 0` and `OPC` is in the opcode map (30 R56); every other word is illegal
(30 R60). -/
def decode (w : CmdWord) : Except DecodeError Instr :=
  if rsvField w ≠ 0#24 then .error (.reservedBits w)
  else
    match lookupOpcode opcodeMap (opcField w) with
    | some i => .ok i
    | none => .error (.reservedOpcode (opcField w))

/-- The word of a command: the column "word" of 30 R56. -/
def encode : Instr → CmdWord
  | .nop => 0x00000000#32
  | .srst => 0x00000001#32
  | .toflt => 0x00000010#32
  | .clrim => 0x00000011#32
  | .zpad => 0x00000012#32
  | .fftrzp => 0x00000013#32
  | .fft => 0x00000020#32
  | .ifft => 0x00000021#32
  | .magmax => 0x00000030#32
  | .thrset => 0x00000031#32
  | .gate => 0x00000032#32
  | .trunc => 0x00000040#32
  | .quant => 0x00000041#32
  | .denoise => 0x00000050#32

/-- The command word of an instruction given by its low `nbits` bits, every bit above them being 0. -/
def tableWord (nbits w : Nat) : CmdWord := BitVec.ofNat 32 (w % 2 ^ nbits)

/-- The command the decoder reads from a word numbered as spec/opcode_table.json numbers it: the block's one format is one
32-bit word, so bits at or above 32 belong to no command. -/
def decodeTableWord (nbits w : Nat) : Option Instr :=
  if w % 2 ^ nbits < 2 ^ 32 then
    match decode (tableWord nbits w) with
    | .ok i => some i
    | .error _ => none
  else none

end Sys2Proof
end

