-- ==== Sys2Proof/Machine/Float.lean ====
section
/-!
DEFINITION. Binary64 arithmetic (40_numerics.md R65 to R77, R79) and the conversion back to integers (R80, R81), computed
exactly over the integers and rounded once. A finite value is an integer number of units of `2^-1074`, the smallest
subnormal; the magnitude of an infinity is then, by the same formula, the next value past the largest finite one.
-/

namespace Sys2Proof.Machine

/-- `+0` (40 R66). -/
def PZERO : Binary64 := 0x0000000000000000#64
/-- `-0` (40 R66). -/
def NZERO : Binary64 := 0x8000000000000000#64
/-- `1.0` (40 R66). -/
def ONE : Binary64 := 0x3FF0000000000000#64
/-- `PI_D` (40 R77). -/
def PI_D : Binary64 := 0x400921FB54442D18#64
/-- `TWO_PI_D` (40 R77). -/
def TWO_PI_D : Binary64 := 0x401921FB54442D18#64

/-- Sign bit `b[63]` (40 R65). -/
def isNeg (b : Binary64) : Bool := b.getLsbD 63
/-- Biased exponent `b[62:52]` (40 R65). -/
def expField (b : Binary64) : Nat := (b.extractLsb' 52 11).toNat
/-- Fraction `b[51:0]` (40 R65). -/
def fracField (b : Binary64) : Nat := (b.extractLsb' 0 52).toNat

/-- The class NaN (40 R66). -/
def isNaN (b : Binary64) : Bool := decide (expField b = 2047) && decide (fracField b ≠ 0)
/-- The class infinity (40 R66). -/
def isInf (b : Binary64) : Bool := decide (expField b = 2047) && decide (fracField b = 0)
/-- The class zero (40 R66). -/
def isZero (b : Binary64) : Bool := decide (expField b = 0) && decide (fracField b = 0)
/-- Zero, subnormal or normal (40 R66). -/
def isFinite (b : Binary64) : Bool := decide (expField b ≠ 2047)

/-- The magnitude of a value in units of `2^-1074` (40 R66); `2^2098` for an infinity. -/
def units (b : Binary64) : Nat :=
  if expField b = 0 then fracField b else (2 ^ 52 + fracField b) * 2 ^ (expField b - 1)

/-- The signed value in units of `2^-1074` (40 R66). -/
def value (b : Binary64) : Int := if isNeg b then -(units b : Int) else (units b : Int)

/-- The pattern with a sign and a magnitude (bits 62:0). -/
def signed (neg : Bool) (mag : Nat) : Binary64 := BitVec.ofNat 64 (mag + if neg then 2 ^ 63 else 0)

/-- The integer nearest to `n / d`, the even one when two are equally near. -/
def nearestEven (n d : Nat) : Nat :=
  if 2 * (n % d) < d then n / d
  else if 2 * (n % d) > d then n / d + 1
  else n / d + n / d % 2

/-- The integer nearest to `n / d`, the greater one when two are equally near. -/
def nearestUp (n d : Nat) : Nat := (2 * n + d) / (2 * d)

/-- The power of two between neighbouring binary64 values around `q` units: values below `2^53` units are 1 unit apart. -/
def spacing (q : Nat) : Nat := q.log2 - 52

/-- The magnitude bits of `RN(x)` (40 R67), `x` being `n / d` units: the multiple of the spacing nearest to `x`, ties to the
even one; the bits of the infinity when it is past the largest finite value. -/
def rnMag (n d : Nat) : Nat :=
  min (spacing (n / d) * 2 ^ 52 + nearestEven n (d * 2 ^ spacing (n / d))) (2047 * 2 ^ 52)

/-- `RN` of a number of sign `neg` and magnitude `n / d` units (40 R67). -/
def rn (neg : Bool) (n d : Nat) : Binary64 := signed neg (rnMag n d)

/-- The infinity of a sign. -/
def infinity (neg : Bool) : Binary64 := signed neg (2047 * 2 ^ 52)
/-- The zero of a sign. -/
def zero (neg : Bool) : Binary64 := signed neg 0

/-- A quiet NaN (40 R75): exponent 2047, fraction bit 51 set, the sign and the rest of the fraction given. -/
def quietNaN (bits : BitVec 52) : Binary64 :=
  BitVec.ofNat 64 (2047 * 2 ^ 52 + 2 ^ 51 + bits.toNat % 2 ^ 51 + bits.toNat / 2 ^ 51 * 2 ^ 63)

/-- "A NaN" (40 R75): some quiet NaN, sign and payload a free value or the block's. -/
def nanResult (c : Config) (op : NanOp) (a b : Binary64) : Binary64 :=
  match c.nan with
  | .drawn => quietNaN (Config.freeNan op a b)
  | .fixed bits => quietNaN bits

/-- `fneg` (40 R73): bit 63 inverted, the other 63 bits kept. -/
def fneg (a : Binary64) : Binary64 := a ^^^ NZERO

/-- `fadd` (40 R68). -/
def fadd (c : Config) (a b : Binary64) : Binary64 :=
  if isNaN a || isNaN b then nanResult c .add a b
  else if isInf a && isInf b && (isNeg a != isNeg b) then nanResult c .add a b
  else if isInf a then a
  else if isInf b then b
  else if isZero a && isZero b then zero (isNeg a && isNeg b)
  else if value a + value b = 0 then PZERO
  else rn (decide (value a + value b < 0)) (value a + value b).natAbs 1

/-- `fsub` (40 R69). -/
def fsub (c : Config) (a b : Binary64) : Binary64 :=
  if isNaN a || isNaN b then nanResult c .sub a b else fadd c a (fneg b)

/-- `fmul` (40 R70). -/
def fmul (c : Config) (a b : Binary64) : Binary64 :=
  if isNaN a || isNaN b then nanResult c .mul a b
  else if (isZero a && isInf b) || (isInf a && isZero b) then nanResult c .mul a b
  else if isInf a || isInf b then infinity (isNeg a != isNeg b)
  else if isZero a || isZero b then zero (isNeg a != isNeg b)
  else rn (isNeg a != isNeg b) (units a * units b) (2 ^ 1074)

/-- `fdiv` (40 R71). -/
def fdiv (c : Config) (a b : Binary64) : Binary64 :=
  if isNaN a || isNaN b then nanResult c .div a b
  else if (isZero a && isZero b) || (isInf a && isInf b) then nanResult c .div a b
  else if isInf a then infinity (isNeg a != isNeg b)
  else if isInf b then zero (isNeg a != isNeg b)
  else if isZero b then infinity (isNeg a != isNeg b)
  else if isZero a then zero (isNeg a != isNeg b)
  else rn (isNeg a != isNeg b) (units a * 2 ^ 1074) (units b)

/-- Binary digits `k-1 .. 0` of the integer square root of `n`, added to the digits `r` above them. -/
def sqrtDigits (n : Nat) : Nat → Nat → Nat
  | 0, r => r
  | k + 1, r => if (r + 2 ^ k) * (r + 2 ^ k) ≤ n then sqrtDigits n k (r + 2 ^ k) else sqrtDigits n k r

/-- The greatest integer whose square is at most `n`, for `n < 4^bits`. -/
def intSqrt (bits n : Nat) : Nat := sqrtDigits n bits 0

/-- Twice the square root of `n < 4^84`, one more when it is not an integer: a number of halves that lies on the same side
of every integer and every half as twice the root itself. -/
def rootHalves (n : Nat) : Nat :=
  2 * intSqrt 84 n + if intSqrt 84 n * intSqrt 84 n = n then 0 else 1

/-- `RN(sqrt(x))` for `x` of `sig * 2^t` units, `sig < 2^53` (40 R72). In units, `sqrt(x)` is the square root of
`sig * 2^(t + 1074)`, that is `2^j` times the square root of `sig * 2^c` with `t + 1074 = c + 2 * j`; `c` is at least 112, so
that this root has more digits than a binary64 and its rest beyond the integer part only breaks ties. -/
def sqrtUnits (sig t : Nat) : Binary64 :=
  rn false (rootHalves (sig * 2 ^ (112 + t % 2)) * 2 ^ ((t + 1074 - (112 + t % 2)) / 2)) 2

/-- `fsqrt` (40 R72). -/
def fsqrt (c : Config) (a : Binary64) : Binary64 :=
  if isNaN a then nanResult c .sqrt a a
  else if isZero a then a
  else if isNeg a then nanResult c .sqrt a a
  else if isInf a then a
  else if expField a = 0 then sqrtUnits (fracField a) 0
  else sqrtUnits (2 ^ 52 + fracField a) (expField a - 1)

/-- `flt` (40 R74): strictly less, as extended reals; false when an operand is NaN. -/
def flt (a b : Binary64) : Bool := !isNaN a && !isNaN b && decide (value a < value b)

/-- `fgt(a, b) = flt(b, a)` (40 R74). -/
def fgt (a b : Binary64) : Bool := flt b a

/-- `i2f` (40 R76). -/
def i2f (v : Int) : Binary64 := rn (decide (v < 0)) (v.natAbs * 2 ^ 1074) 1

/-- `round_int(a)` for a finite `a` (40 R80). -/
def roundInt (ties : TieRule) (a : Binary64) : Int :=
  match ties with
  | .away => if isNeg a then -(nearestUp (units a) (2 ^ 1074) : Int) else (nearestUp (units a) (2 ^ 1074) : Int)
  | .even => if isNeg a then -(nearestEven (units a) (2 ^ 1074) : Int) else (nearestEven (units a) (2 ^ 1074) : Int)

/-- `wrap_W(r)` (40 R81): the integer in `[-2^(W-1), 2^(W-1))` congruent to `r` modulo `2^W`. -/
def wrapInt (w : Nat) (r : Int) : Int := r.bmod (2 ^ w)

end Sys2Proof.Machine
end

