-- ==== Sys2Proof/Machine/Trig.lean ====
section
/-!
DEFINITION. The configuration functions `COS` and `SIN` (40_numerics.md R78): the default instantiation, correct rounding,
computed from the Taylor series in 320-bit fixed point (log 5), and every other admissible instantiation, a free value held
to the spec's three properties (log 6).
-/

namespace Sys2Proof.Machine

/-- `2*pi` in units of `2^-1500`, rounded down. -/
def twoPi1500 : Nat :=
  0x6487ed5110b4611a62633145c06e0e68948127044533e63a0105df531d89cd9128a5043cc71a026ef7ca8cd9e69d218d98158536f92f8a1ba7f09ab6b6a8e122f242dabb312f3f637a262174d31bf6b585ffae5b7a035bf6f71c35fdad44cfd2d74f9208be258ff324943328f6722d9ee1003e5c50b1df82cc6d241b0e2ae9cd348b1fd47e9267afc1b2ae91ee51d6cb0e3179ab1042a95dcf6a9483b84b4b36b3861aa7255e4c0278ba3604650c10be19482f23171b671df1cf3b96

/-- The argument's magnitude modulo `2*pi`, in units of `2^-1500`; exact when it is below `2*pi`. -/
def reducedAngle (a : Binary64) : Nat := units a * 2 ^ 426 % twoPi1500

/-- The square of the reduced angle in units of `2^-320`. -/
def angleSquared (a : Binary64) : Nat := reducedAngle a * reducedAngle a * 2 ^ 320 / 2 ^ 3000

/-- `t - t*y/((2k+o)(2k+o+1)) + ...`, the rest of an alternating series whose term of number `k` is `t`, in units of
`2^-320`; `o` is 1 for the cosine and 2 for the sine divided by its argument. -/
def alternating (y o : Nat) : Nat → Nat → Nat → Int
  | 0, _, _ => 0
  | more + 1, k, t =>
    (t : Int) - alternating y o more (k + 1) (t * y / 2 ^ 320 / ((2 * k + o) * (2 * k + o + 1)))

/-- `cos(|a|)` in units of `2^-320`. -/
def cosSeries (a : Binary64) : Int := alternating (angleSquared a) 1 80 0 (2 ^ 320)

/-- `sin(x)/x` in units of `2^-320`, `x` being the reduced angle. -/
def sinSeries (a : Binary64) : Int := alternating (angleSquared a) 2 80 0 (2 ^ 320)

/-- `RN(cos(value(a)))` for a finite `a`; a zero result takes the sign + (40 R78). -/
def cosRounded (a : Binary64) : Binary64 :=
  rn (decide (cosSeries a < 0)) ((cosSeries a).natAbs * 2 ^ 1074) (2 ^ 320)

/-- `RN(sin(value(a)))` for a finite `a`; a zero result takes the sign of `a` (40 R78). -/
def sinRounded (a : Binary64) : Binary64 :=
  rn (isNeg a != decide (sinSeries a < 0)) (reducedAngle a * (sinSeries a).natAbs * 2 ^ 1074) (2 ^ 1820)

/-- A finite value of magnitude at most 1; anything else is replaced by 1.0. On a function that has TRIG_FINITE this is the
identity, so no admissible instantiation is lost. -/
def unitBounded (b : Binary64) : Binary64 :=
  if isFinite b && decide (units b ≤ units ONE) then b else ONE

/-- The instantiation's cosine before TRIG_ZERO and TRIG_FINITE are imposed. For a non-finite argument the spec states no
value: free (log 6). -/
def rawCos (t : Trig) (a : Binary64) : Binary64 :=
  match t with
  | .correctlyRounded => if isFinite a then cosRounded a else Config.freeCos 0 a
  | .other n => Config.freeCos n a

/-- The instantiation's sine before TRIG_ZERO and TRIG_FINITE are imposed. -/
def rawSin (t : Trig) (a : Binary64) : Binary64 :=
  match t with
  | .correctlyRounded => if isFinite a then sinRounded a else Config.freeSin 0 a
  | .other n => Config.freeSin n a

/-- `COS` (40 R78): TRIG_ZERO at `+0`, TRIG_FINITE at every other finite argument. -/
def fcos (c : Config) (a : Binary64) : Binary64 :=
  if a = PZERO then ONE
  else if isFinite a then unitBounded (rawCos c.trig a)
  else rawCos c.trig a

/-- `SIN` (40 R78): TRIG_ZERO at `+0`, TRIG_FINITE at every other finite argument. -/
def fsin (c : Config) (a : Binary64) : Binary64 :=
  if a = PZERO then PZERO
  else if isFinite a then unitBounded (rawSin c.trig a)
  else rawSin c.trig a

end Sys2Proof.Machine
end

