-- ==== Sys2Proof/Machine/Fourier.lean ====
section
/-!
DEFINITION. The pure functions on sequences of coefficients: angle, twiddle, rotate, butterfly, `fft` and `ifft`
(42_transform.md R95 to R99, R102).
-/

namespace Sys2Proof.Machine

/-- `angle(k, n)` (42 R95). -/
def angle (c : Config) (k n : Nat) : Binary64 := fdiv c (fmul c TWO_PI_D (i2f k)) (i2f n)

/-- The twiddle `(wr(k, n), wi(k, n))` (42 R96). -/
def twiddle (c : Config) (k n : Nat) : Bin :=
  { re := fcos c (angle c k n), im := fneg (fsin c (angle c k n)) }

/-- Rotate (42 R97): the complex product of the twiddle `w` and an odd-half coefficient `o`. -/
def rotate (c : Config) (w o : Bin) : Bin :=
  { re := fsub c (fmul c w.re o.re) (fmul c w.im o.im), im := fadd c (fmul c w.re o.im) (fmul c w.im o.re) }

/-- The butterfly's first output (42 R98). -/
def butterflyAdd (c : Config) (e t : Bin) : Bin := { re := fadd c e.re t.re, im := fadd c e.im t.im }

/-- The butterfly's second output (42 R98). -/
def butterflySub (c : Config) (e t : Bin) : Bin := { re := fsub c e.re t.re, im := fsub c e.im t.im }

/-- The even-indexed elements. -/
def evens {α : Type} : List α → List α
  | [] => []
  | [a] => [a]
  | a :: _ :: rest => a :: evens rest

/-- The odd-indexed elements. -/
def odds {α : Type} : List α → List α
  | [] => []
  | [_] => []
  | _ :: b :: rest => b :: odds rest

/-- The odd half's outputs from index `k` on, each rotated by its twiddle of sub-transform length `n`. -/
def rotateFrom (c : Config) (n : Nat) : Nat → List Bin → List Bin
  | _, [] => []
  | k, o :: os => rotate c (twiddle c k n) o :: rotateFrom c n (k + 1) os

/-- Combining the two half transforms into one of length `n` (42 R99): `out[k]`, then `out[k + n/2]`. -/
def combine (c : Config) (n : Nat) (e o : List Bin) : List Bin :=
  List.zipWith (butterflyAdd c) e (rotateFrom c n 0 o) ++ List.zipWith (butterflySub c) e (rotateFrom c n 0 o)

/-- `fft` (42 R99) to a recursion depth. -/
def fftDepth (c : Config) : Nat → List Bin → List Bin
  | 0, x => x
  | d + 1, x =>
    if x.length ≤ 1 then x
    else combine c x.length (fftDepth c d (evens x)) (fftDepth c d (odds x))

/-- `fft(re, im)` (42 R99), for a length 0 or a power of two; the recursion is `log2` of the length deep. -/
def fft (c : Config) (x : List Bin) : List Bin := fftDepth c x.length.log2 x

/-- A coefficient with its imaginary part negated. -/
def conjugate (b : Bin) : Bin := { re := b.re, im := fneg b.im }

/-- `(re / n, fneg(im) / n)` (42 R102). -/
def negateAndDivide (c : Config) (n : Nat) (b : Bin) : Bin :=
  { re := fdiv c b.re (i2f n), im := fdiv c (fneg b.im) (i2f n) }

/-- `ifft(re, im)` (42 R102), by the conjugation trick. -/
def ifft (c : Config) (x : List Bin) : List Bin :=
  (fft c (x.map conjugate)).map (negateAndDivide c x.length)

end Sys2Proof.Machine
end

