-- ==== Sys2Proof/Machine/State.lean ====
section
/-!
DEFINITION. The state of R2FFT-DN: the sixteen registers and three memories of 10_state.md, the block's parameters, and the
model's own bookkeeping (free draws, the events to come, the values the host has read). Plain data throughout.
-/

namespace Sys2Proof.Machine

/-- A memory of `w`-bit elements: the elements written since its content last became unspecified, by rising index, and the
index of the free draw that every other element still holds (70 R158; log 8). -/
structure Mem (w : Nat) where
  draw : Nat
  cells : List (Nat × BitVec w)
  deriving DecidableEq, Repr

/-- The value of one host read (20 R44). -/
inductive Reply where
  | word32 (v : BitVec 32)
  | word64 (v : BitVec 64)
  deriving DecidableEq, Repr

/-- The six faults of a command with the `info` of their pseudocode (60 R140). They are recorded in `STATUS` and stop no
step: taking one is a next state (`raise`, 60 R147). -/
inductive CmdFault where
  | illegalCommand (w : CmdWord)
  | lenNotPow2 (n : Reg32)
  | capacity (n : Reg32)
  | badBits (b : Reg32)
  | truncRange (n : Reg32)
  | nonFinite (i : Nat)
  deriving DecidableEq, Repr

structure State where
  /-- The block's parameters (00 R6, R7), changed by no step; `CAPLOG2` is register 9 (10 R30). -/
  config : Config
  /-- Register 0, `CMD` (10 R21). -/
  cmd : CmdWord
  /-- Register 1, `STATUS`, kept bits 15:0 (10 R22). -/
  status : BitVec 16
  /-- Register 2, `SLEN` (10 R23). -/
  slen : Reg32
  /-- Register 3, `LEN` (10 R24). -/
  len : Reg32
  /-- Register 4, `OLEN` (10 R25). -/
  olen : Reg32
  /-- Register 5, `BITS` (10 R26). -/
  bits : Reg32
  /-- Register 6, `THRF` (10 R27). -/
  thrf : Binary64
  /-- Register 7, `MAXMAG` (10 R28). -/
  maxmag : Binary64
  /-- Register 8, `THR` (10 R29). -/
  thr : Binary64
  /-- `SMP` (10 R33). -/
  smp : Mem 32
  /-- `RE` (10 R34). -/
  re : Mem 64
  /-- `IM` (10 R35). -/
  im : Mem 64
  /-- The model's own: the index of the next free draw (log 9). -/
  draws : Nat
  /-- The model's own: the events to come, oldest first (log 1). -/
  pending : List Event
  /-- The model's own: the values the host's reads returned, oldest first (log 1). -/
  replies : List Reply
  deriving DecidableEq, Repr

/-- The reasons a step stops with a fault. -/
inductive Fault where
  /-- Raised by a host access whose index addresses no location (20 R43, 93 U6). Safe: the spec has no behaviour there. -/
  | noSuchElement (space : Space) (index : Nat)
  deriving DecidableEq, Repr

/-- The reasons a step is refused. -/
inductive Refusal where
  /-- Raised by an arm of `exec` whose command has no meaning yet (no arm does). Safe: nothing is claimed of it. -/
  | notModelled (mnemonic : String)
  /-- Raised by a host access other than a `STATUS` read while `BUSY = 1` (70 R162, 93 U4). Safe: the spec refuses it too. -/
  | accessWhileBusy (a : Access)
  /-- Raised by a host write of `CMD` while `BUSY = 1` (70 R164, 93 U5). Safe: the spec refuses it too. -/
  | cmdWriteWhileBusy (w : CmdWord)
  deriving DecidableEq, Repr

/-- The parameters of the block that `State.reset` shows: the spec's defaults for `ROUND_TIES`, `COS` and `SIN`, free NaN
results, and `CAPLOG2 = 16` (DESIGN CHOICE, log 3). -/
def defaultConfig : Config :=
  { caplog2 := 16, ties := .away, trig := .correctlyRounded, nan := .drawn }

/-- The block with the parameters `c` right after a hardware reset (70 R157, R158). -/
def State.resetWith (c : Config) : State :=
  { config := c, cmd := 0#32, status := 0#16, slen := 0#32, len := 0#32, olen := 0#32, bits := 0#32,
    thrf := 0#64, maxmag := 0#64, thr := 0#64,
    smp := { draw := 0, cells := [] }, re := { draw := 0, cells := [] }, im := { draw := 0, cells := [] },
    draws := 1, pending := [], replies := [] }

/-- The machine right after reset (70 R157, R158). -/
def State.reset : State := State.resetWith defaultConfig

end Sys2Proof.Machine
end

