-- ==== Sys2Proof/Machine/Flags.lean ====
section
/-!
DEFINITION. The fields of `STATUS` (10_state.md R22) and every computation of them: the only status bits of the block
(10 R38). No arithmetic sets a flag (40_numerics.md R79).
-/

namespace Sys2Proof.Machine

/-- `STATUS` with the given `BUSY` (bit 0), `DONE` (bit 1) and `FAULT` (bits 15:8); bits 7:2 are 0 (10 R22). -/
def statusWord (busy done : Bool) (fault : BitVec 8) : BitVec 16 :=
  BitVec.ofNat 16 (fault.toNat * 256 + done.toNat * 2 + busy.toNat)

/-- Field `BUSY` of a status word. -/
def busyBit (st : BitVec 16) : Bool := st.getLsbD 0

/-- Field `DONE` of a status word. -/
def doneBit (st : BitVec 16) : Bool := st.getLsbD 1

/-- Field `FAULT` of a status word. -/
def faultField (st : BitVec 16) : BitVec 8 := st.extractLsb' 8 8

/-- `STATUS.BUSY = 1`. -/
def State.busy (s : State) : Bool := busyBit s.status

/-- `STATUS.DONE = 1`. -/
def State.done (s : State) : Bool := doneBit s.status

/-- `STATUS.FAULT`. -/
def State.faultCode (s : State) : BitVec 8 := faultField s.status

/-- The code a fault records (60 R140). -/
def faultCodeOf : CmdFault → BitVec 8
  | .illegalCommand _ => 1#8
  | .lenNotPow2 _ => 2#8
  | .capacity _ => 3#8
  | .badBits _ => 4#8
  | .truncRange _ => 5#8
  | .nonFinite _ => 6#8

/-- Acceptance (30 R57): `BUSY <- 1`, `DONE <- 0`, `FAULT` unchanged. -/
def acceptedStatus (st : BitVec 16) : BitVec 16 := statusWord true false (faultField st)

/-- Completion without fault (30 R58): `BUSY <- 0`, `DONE <- 1`, `FAULT` unchanged. -/
def completedStatus (st : BitVec 16) : BitVec 16 := statusWord false true (faultField st)

/-- Fault entry (60 R147): `FAULT <- code`, `BUSY <- 0`, `DONE <- 0`. -/
def faultedStatus (f : CmdFault) : BitVec 16 := statusWord false false (faultCodeOf f)

end Sys2Proof.Machine
end

