-- ==== Sys2Proof/Machine/Ops.lean ====
section
/-!
DEFINITION. The named operations over memories and registers, command acceptance and completion, taking a fault, and reset.
Every meaning reads and writes the state through these.
-/

namespace Sys2Proof.Machine

/-- `CAP = 2^CAPLOG2`, the number of elements of each memory (00 R6). -/
def State.cap (s : State) : Nat := 2 ^ s.config.caplog2.val

/-- The element listed at an index, if one has been written since the content became unspecified. -/
def cellAt {w : Nat} : List (Nat × BitVec w) → Nat → Option (BitVec w)
  | [], _ => none
  | (j, v) :: rest, i => if j = i then some v else cellAt rest i

/-- The list with an element written, keeping the indices rising. -/
def cellPut {w : Nat} (i : Nat) (v : BitVec w) : List (Nat × BitVec w) → List (Nat × BitVec w)
  | [] => [(i, v)]
  | (j, u) :: rest =>
    if i < j then (i, v) :: (j, u) :: rest
    else if i = j then (i, v) :: rest
    else (j, u) :: cellPut i v rest

/-- Read of one whole element: the listed value, or the element's free draw (20 R41, 70 R158). -/
def Mem.read {w : Nat} (free : Nat → Nat → BitVec w) (m : Mem w) (i : Nat) : BitVec w :=
  match cellAt m.cells i with
  | some v => v
  | none => free m.draw i

/-- Write of one whole element (20 R41). -/
def Mem.write {w : Nat} (m : Mem w) (i : Nat) (v : BitVec w) : Mem w :=
  { m with cells := cellPut i v m.cells }

/-- Writes of consecutive elements, in rising index. -/
def Mem.writeList {w : Nat} (m : Mem w) (i : Nat) : List (BitVec w) → Mem w
  | [] => m
  | v :: vs => (m.write i v).writeList (i + 1) vs

/-- Writes of one value at each index of a list. -/
def Mem.fillAt {w : Nat} (m : Mem w) (v : BitVec w) : List Nat → Mem w
  | [] => m
  | i :: is => (m.write i v).fillAt v is

/-- Content become unspecified: no element listed, every element a value of the draw `d` (70 R158). -/
def Mem.unspecified {w : Nat} (d : Nat) : Mem w := { draw := d, cells := [] }

/-- Indices rise strictly from `lo` on and stay below `cap`. -/
def cellsRise {w : Nat} (cap : Nat) : Nat → List (Nat × BitVec w) → Bool
  | _, [] => true
  | lo, (j, _) :: rest => decide (lo ≤ j) && decide (j < cap) && cellsRise cap (j + 1) rest

/-- The canonical form of a memory of `cap` elements (log 8). -/
def Mem.wf {w : Nat} (cap : Nat) (m : Mem w) : Bool := cellsRise cap 0 m.cells

/-- `SMP[i]`. -/
def State.readSmp (s : State) (i : Nat) : Sample := s.smp.read Config.freeSmp i

/-- `RE[i]`. -/
def State.readRe (s : State) (i : Nat) : Binary64 := s.re.read Config.freeRe i

/-- `IM[i]`. -/
def State.readIm (s : State) (i : Nat) : Binary64 := s.im.read Config.freeIm i

/-- Coefficient `i` (10 R35). -/
def State.bin (s : State) (i : Nat) : Bin := { re := s.readRe i, im := s.readIm i }

def State.setCmd (s : State) (w : CmdWord) : State := { s with cmd := w }
def State.setStatus (s : State) (st : BitVec 16) : State := { s with status := st }
def State.setSlen (s : State) (n : Reg32) : State := { s with slen := n }
def State.setLen (s : State) (n : Reg32) : State := { s with len := n }
def State.setOlen (s : State) (n : Reg32) : State := { s with olen := n }
def State.setBits (s : State) (n : Reg32) : State := { s with bits := n }
def State.setThrf (s : State) (v : Binary64) : State := { s with thrf := v }
def State.setMaxmag (s : State) (v : Binary64) : State := { s with maxmag := v }
def State.setThr (s : State) (v : Binary64) : State := { s with thr := v }
def State.setSmp (s : State) (m : Mem 32) : State := { s with smp := m }
def State.setRe (s : State) (m : Mem 64) : State := { s with re := m }
def State.setIm (s : State) (m : Mem 64) : State := { s with im := m }
def State.setPending (s : State) (es : List Event) : State := { s with pending := es }

/-- Taking a fault (60 R147): `STATUS.FAULT <- code`, `BUSY <- 0`, `DONE <- 0`; nothing else is saved and nothing else
changes. -/
def raise (f : CmdFault) (s : State) : State := s.setStatus (faultedStatus f)

/-- The end of a command that ran without `raise` (30 R58): `BUSY <- 0`, `DONE <- 1`. -/
def finish (s : State) : State := s.setStatus (completedStatus s.status)

/-- The completion event (30 R58) of a command whose pseudocode, run on `s`, gave `r`: its end state, or the fault it raised
before its first write. -/
def complete (r : Except CmdFault State) (s : State) : Host.Outcome State Fault Refusal :=
  match r with
  | .ok t => .next (finish t)
  | .error f => .next (raise f s)

/-- Acceptance of a command word (30 R57), `BUSY` being 0: ignored in the fault state unless it is `SRST`. -/
def acceptCommand (w : CmdWord) (s : State) : State :=
  if s.faultCode ≠ 0#8 ∧ w ≠ 0x00000001#32 then s
  else (s.setCmd w).setStatus (acceptedStatus s.status)

/-- What `SRST` does to the registers (45 R134): every register but `CAPLOG2` to its reset value; the memories are kept. -/
def softReset (s : State) : State :=
  { s with
    cmd := 0#32, status := 0#16, slen := 0#32, len := 0#32, olen := 0#32, bits := 0#32,
    thrf := 0#64, maxmag := 0#64, thr := 0#64 }

/-- The reset event (70 R156 to R158): the registers of `SRST`, and every memory unspecified, under a fresh draw. -/
def hardwareReset (s : State) : State :=
  { softReset s with
    smp := Mem.unspecified s.draws, re := Mem.unspecified s.draws, im := Mem.unspecified s.draws, draws := s.draws + 1 }

/-- The scratch state after `DENOISE` ended with a late `NonFinite` (45 R131, 93 U3): `RE`, `IM`, `LEN`, `OLEN`, `MAXMAG`
and `THR` unspecified, under a fresh draw; everything else unchanged. -/
def unspecifyScratch (s : State) : State :=
  { s with
    re := Mem.unspecified s.draws, im := Mem.unspecified s.draws,
    len := Config.freeLen s.draws, olen := Config.freeOlen s.draws,
    maxmag := Config.freeMaxmag s.draws, thr := Config.freeThr s.draws, draws := s.draws + 1 }

/-- A command word placed for the engine (log 2): accepted as by 30 R57 and the next event the engine's turn. -/
def placeCommand (w : CmdWord) (s : State) : State :=
  ((s.setCmd w).setStatus (acceptedStatus s.status)).setPending (.engine :: s.pending)

end Sys2Proof.Machine
end

