-- ==== Sys2Proof/Machine/Operands.lean ====
section
/-!
DEFINITION. The implicit operands of the commands (30_encoding.md R59): the ranges given by `SLEN` and `LEN`, their check
(41_convert_pad.md R85), the sample width, and the integer laws of 40_numerics.md R83 and R84.
-/

namespace Sys2Proof.Machine

/-- `ispow2(n)`: `n = 2^j` for some natural `j` (40 R83). -/
def ispow2 (n : Nat) : Bool := decide (n = 2 ^ n.log2)

/-- `npow2(n)`: 0 for 0, `n` for a power of two, otherwise the smallest power of two greater than `n` (40 R84). -/
def npow2 (n : Nat) : Nat :=
  if n = 0 then 0 else if ispow2 n then n else 2 ^ (n.log2 + 1)

/-- The common length check (41 R85, 60 R143): `Capacity` when the register exceeds `CAP`, before anything else. -/
def withinCap (n : Reg32) (s : State) (run : State → Except CmdFault State) : Except CmdFault State :=
  if n.toNat > s.cap then .error (.capacity n) else run s

/-- The length check of `FFT` and `IFFT` (60 R142): `LenNotPow2` when `LEN` is neither 0 nor a power of two. -/
def powerOfTwoLen (s : State) (run : State → Except CmdFault State) : Except CmdFault State :=
  if s.len.toNat ≠ 0 ∧ ispow2 s.len.toNat = false then .error (.lenNotPow2 s.len) else run s

/-- `BITS` is one of 8, 16, 32 (60 R144). -/
def legalWidth (b : Reg32) : Bool := b == 8#32 || b == 16#32 || b == 32#32

/-- The width check of `QUANT` and `DENOISE` (60 R144): `BadBits` unless `BITS` is 8, 16 or 32. -/
def widthLegal (s : State) (run : State → Except CmdFault State) : Except CmdFault State :=
  if legalWidth s.bits then run s else .error (.badBits s.bits)

/-- The samples `SMP[0 .. n-1]`. -/
def State.samples (s : State) (n : Nat) : List Sample := (List.range n).map s.readSmp

/-- The coefficients `(RE[i], IM[i])` for `i` in `[0, n)`. -/
def State.bins (s : State) (n : Nat) : List Bin := (List.range n).map s.bin

/-- `RE[0 ..], IM[0 ..] <-` the real and imaginary parts of a sequence. -/
def State.storeBins (s : State) (x : List Bin) : State :=
  (s.setRe (s.re.writeList 0 (x.map Bin.re))).setIm (s.im.writeList 0 (x.map Bin.im))

end Sys2Proof.Machine
end

