-- ==== Sys2Proof/Machine/Gate.lean ====
section
/-!
DEFINITION. The magnitude threshold gate: `MAGMAX`, `THRSET`, `GATE` (43_gate.md R110 to R113).
-/

namespace Sys2Proof.Machine

/-- `mag(r, i)` of one bin (43 R110). -/
def mag (c : Config) (b : Bin) : Binary64 := fsqrt c (fadd c (fmul c b.re b.re) (fmul c b.im b.im))

/-- One turn of `MAGMAX`'s loop: the larger of the accumulator and a magnitude; a NaN is never selected (43 R111). -/
def largerMag (c : Config) (acc : Binary64) (b : Bin) : Binary64 := if fgt (mag c b) acc then mag c b else acc

/-- The largest magnitude of a sequence of bins, from `+0` on (43 R111). -/
def maxMag (c : Config) (x : List Bin) : Binary64 := x.foldl (largerMag c) PZERO

/-- `MAGMAX`'s pseudocode (43 R111). -/
def magmaxCode (s : State) : Except CmdFault State :=
  withinCap s.len s fun s => .ok (s.setMaxmag (maxMag s.config (s.bins s.len.toNat)))

/-- `MAGMAX` (43 R111). -/
def execMagmax (s : State) : Host.Outcome State Fault Refusal := complete (magmaxCode s) s

/-- `THRSET`'s pseudocode (43 R112). -/
def thrsetCode (s : State) : Except CmdFault State := .ok (s.setThr (fmul s.config s.thrf s.maxmag))

/-- `THRSET` (43 R112). -/
def execThrset (s : State) : Host.Outcome State Fault Refusal := complete (thrsetCode s) s

/-- Bin `i` is strictly below the threshold (43 R113). -/
def gated (s : State) (i : Nat) : Bool := flt (mag s.config (s.bin i)) s.thr

/-- `GATE`'s writes (43 R113): each bin is decided on its own values. -/
def gateBins (s : State) : State :=
  (s.setRe (s.re.fillAt PZERO ((List.range s.len.toNat).filter (gated s)))).setIm
    (s.im.fillAt PZERO ((List.range s.len.toNat).filter (gated s)))

/-- `GATE`'s pseudocode (43 R113). -/
def gateCode (s : State) : Except CmdFault State := withinCap s.len s fun s => .ok (gateBins s)

/-- `GATE` (43 R113). -/
def execGate (s : State) : Host.Outcome State Fault Refusal := complete (gateCode s) s

end Sys2Proof.Machine
end

