-- ==== Sys2Proof/Machine/Requant.lean ====
section
/-!
DEFINITION. Truncation and re-quantization: `TRUNC`, `QUANT` (44_requant.md R120 to R122).
-/

namespace Sys2Proof.Machine

/-- `TRUNC`'s pseudocode (44 R120). -/
def truncCode (s : State) : Except CmdFault State :=
  withinCap s.len s fun s => if s.olen.toNat > s.len.toNat then .error (.truncRange s.olen) else .ok (s.setLen s.olen)

/-- `TRUNC` (44 R120). -/
def execTrunc (s : State) : Host.Outcome State Fault Refusal := complete (truncCode s) s

/-- `requant_W(a)` (44 R121), for a finite `a`. -/
def requant (ties : TieRule) (w : Nat) (a : Binary64) : Int := wrapInt w (roundInt ties a)

/-- The 32-bit element of a re-quantized value, sign-extended from `W` bits (44 R122). -/
def requantSample (ties : TieRule) (w : Nat) (a : Binary64) : Sample := BitVec.ofInt 32 (requant ties w a)

/-- The real parts `RE[0 .. n-1]`. -/
def State.reals (s : State) (n : Nat) : List Binary64 := (List.range n).map s.readRe

/-- The lowest index from `i` on whose value is NaN or infinite (44 R122). -/
def firstNonFinite (i : Nat) : List Binary64 → Option Nat
  | [] => none
  | a :: rest => if isFinite a then firstNonFinite (i + 1) rest else some i

/-- `QUANT`'s writes, its second pass (44 R122). -/
def requantize (s : State) : State :=
  (s.setSmp (s.smp.writeList 0 ((s.reals s.len.toNat).map (requantSample s.config.ties s.bits.toNat)))).setSlen s.len

/-- `QUANT`'s check pass and its writes (44 R122). -/
def finiteThenRequantize (s : State) : Except CmdFault State :=
  match firstNonFinite 0 (s.reals s.len.toNat) with
  | some i => .error (.nonFinite i)
  | none => .ok (requantize s)

/-- `QUANT`'s pseudocode (44 R122). -/
def quantCode (s : State) : Except CmdFault State :=
  withinCap s.len s fun s => widthLegal s finiteThenRequantize

/-- `QUANT` (44 R122). -/
def execQuant (s : State) : Host.Outcome State Fault Refusal := complete (quantCode s) s

end Sys2Proof.Machine
end

