-- ==== Sys2Proof/Machine/Convert.lean ====
section
/-!
DEFINITION. The conversion and padding commands `TOFLT`, `CLRIM`, `ZPAD`, `FFTRZP` (41_convert_pad.md R86 to R89). The
pseudocode of each is a function of its own, since `DENOISE` runs some of them too (45_composite_system.md R130).
-/

namespace Sys2Proof.Machine

/-- The binary64 value of a sample, the whole 32-bit signed element (41 R86). -/
def sampleToFloat (v : Sample) : Binary64 := i2f v.toInt

/-- `TOFLT`'s writes (41 R86). -/
def convertSamples (s : State) : State :=
  ((s.setRe (s.re.writeList 0 ((s.samples s.slen.toNat).map sampleToFloat))).setLen s.slen).setOlen s.slen

/-- `TOFLT`'s pseudocode (41 R86). -/
def tofltCode (s : State) : Except CmdFault State := withinCap s.slen s fun s => .ok (convertSamples s)

/-- `TOFLT` (41 R86). -/
def execToflt (s : State) : Host.Outcome State Fault Refusal := complete (tofltCode s) s

/-- `CLRIM`'s writes (41 R87). -/
def clearImaginary (s : State) : State := s.setIm (s.im.fillAt PZERO (List.range s.len.toNat))

/-- `CLRIM`'s pseudocode (41 R87). -/
def clrimCode (s : State) : Except CmdFault State := withinCap s.len s fun s => .ok (clearImaginary s)

/-- `CLRIM` (41 R87). -/
def execClrim (s : State) : Host.Outcome State Fault Refusal := complete (clrimCode s) s

/-- The padding range `[n, npow2(n))` (41 R88). -/
def padRange (n : Nat) : List Nat := List.range' n (npow2 n - n)

/-- `LEN <- npow2(LEN)`. -/
def padLength (s : State) : State := s.setLen (BitVec.ofNat 32 (npow2 s.len.toNat))

/-- `ZPAD`'s writes (41 R88). -/
def padZeros (s : State) : State :=
  padLength ((s.setRe (s.re.fillAt PZERO (padRange s.len.toNat))).setIm (s.im.fillAt PZERO (padRange s.len.toNat)))

/-- `ZPAD`'s pseudocode (41 R88). -/
def zpadCode (s : State) : Except CmdFault State := withinCap s.len s fun s => .ok (padZeros s)

/-- `ZPAD` (41 R88). -/
def execZpad (s : State) : Host.Outcome State Fault Refusal := complete (zpadCode s) s

/-- `(RE, IM) <- fft(RE, IM)` over `[0, LEN)` (42 R99, R101). -/
def forwardTransform (s : State) : State := s.storeBins (fft s.config (s.bins s.len.toNat))

/-- `FFTRZP`'s writes (41 R89): pad `RE`, clear `IM` over the padded length, transform. -/
def padAndTransform (s : State) : State :=
  forwardTransform (clearImaginary (padLength (s.setRe (s.re.fillAt PZERO (padRange s.len.toNat)))))

/-- `FFTRZP`'s pseudocode (41 R89). -/
def fftrzpCode (s : State) : Except CmdFault State := withinCap s.len s fun s => .ok (padAndTransform s)

/-- `FFTRZP` (41 R89). -/
def execFftrzp (s : State) : Host.Outcome State Fault Refusal := complete (fftrzpCode s) s

end Sys2Proof.Machine
end

