-- ==== Sys2Proof/Machine/Transform.lean ====
section
/-!
DEFINITION. The transform commands `FFT` and `IFFT` (42_transform.md R101, R103).
-/

namespace Sys2Proof.Machine

/-- `FFT`'s pseudocode (42 R101). -/
def fftCode (s : State) : Except CmdFault State :=
  withinCap s.len s fun s => powerOfTwoLen s fun s => .ok (forwardTransform s)

/-- `FFT` (42 R101). -/
def execFft (s : State) : Host.Outcome State Fault Refusal := complete (fftCode s) s

/-- `(RE, IM) <- ifft(RE, IM)` over `[0, LEN)` (42 R102, R103). -/
def inverseTransform (s : State) : State := s.storeBins (ifft s.config (s.bins s.len.toNat))

/-- `IFFT`'s pseudocode (42 R103). -/
def ifftCode (s : State) : Except CmdFault State :=
  withinCap s.len s fun s => powerOfTwoLen s fun s => .ok (inverseTransform s)

/-- `IFFT` (42 R103). -/
def execIfft (s : State) : Host.Outcome State Fault Refusal := complete (ifftCode s) s

end Sys2Proof.Machine
end

