-- ==== Sys2Proof/Machine/Composite.lean ====
section
/-!
DEFINITION. `DENOISE` (45_composite_system.md R130, R131): the pseudocode of eight commands in order, behind two checks.
-/

namespace Sys2Proof.Machine

/-- Steps 1 to 8 (45 R130), each on the state the one before it left. -/
def denoisePass (s : State) : Except CmdFault State :=
  (((((((tofltCode s).bind fftrzpCode).bind magmaxCode).bind thrsetCode).bind gateCode).bind ifftCode).bind truncCode).bind
    quantCode

/-- The completion of a pass begun in `s` (45 R131): a fault raised inside it leaves the scratch state unspecified. -/
def completePass (r : Except CmdFault State) (s : State) : Host.Outcome State Fault Refusal :=
  match r with
  | .ok t => .next (finish t)
  | .error f => .next (raise f (unspecifyScratch s))

/-- The two checks before step 1 (45 R131). -/
def denoiseChecks (s : State) : Except CmdFault State := withinCap s.slen s fun s => widthLegal s fun s => .ok s

/-- `DENOISE` (45 R130, R131). -/
def execDenoise (s : State) : Host.Outcome State Fault Refusal :=
  match denoiseChecks s with
  | .error f => .next (raise f s)
  | .ok t => completePass (denoisePass t) t

end Sys2Proof.Machine
end

