-- ==== Sys2Proof/Machine/System.lean ====
section
/-!
DEFINITION. The system commands `NOP` and `SRST` (45_composite_system.md R133, R134).
-/

namespace Sys2Proof.Machine

/-- `NOP` (45 R133): empty pseudocode. -/
def execNop (s : State) : Host.Outcome State Fault Refusal := complete (.ok s) s

/-- `SRST` (45 R134): the registers to their reset values, `STATUS` to 0 (`DONE` stays 0), the memories kept. -/
def execSrst (s : State) : Host.Outcome State Fault Refusal := .next (softReset s)

end Sys2Proof.Machine
end

