-- ==== Sys2Proof/Machine/Dispatch.lean ====
section
/-!
DEFINITION. The meaning of each command, one arm per constructor.
-/

namespace Sys2Proof.Machine

def exec (i : Instr) (s : State) : Host.Outcome State Fault Refusal :=
  match i with
  | .nop => Sys2Proof.Machine.execNop s
  | .srst => Sys2Proof.Machine.execSrst s
  | .toflt => Sys2Proof.Machine.execToflt s
  | .clrim => Sys2Proof.Machine.execClrim s
  | .zpad => Sys2Proof.Machine.execZpad s
  | .fftrzp => Sys2Proof.Machine.execFftrzp s
  | .fft => Sys2Proof.Machine.execFft s
  | .ifft => Sys2Proof.Machine.execIfft s
  | .magmax => Sys2Proof.Machine.execMagmax s
  | .thrset => Sys2Proof.Machine.execThrset s
  | .gate => Sys2Proof.Machine.execGate s
  | .trunc => Sys2Proof.Machine.execTrunc s
  | .quant => Sys2Proof.Machine.execQuant s
  | .denoise => Sys2Proof.Machine.execDenoise s

end Sys2Proof.Machine
end

