-- ==== Sys2Proof/Machine/HostPort.lean ====
section
/-!
DEFINITION. The host port (20_memory.md R43 to R47, 10_state.md R20 to R32, 70_reset_and_hazards.md R162 to R164).
-/

namespace Sys2Proof.Machine

/-- The value a host read of register `i` returns (10 R20 to R32): integer registers zero-extended, reserved ones 0. -/
def registerValue (s : State) (i : Nat) : BitVec 64 :=
  match i with
  | 0 => s.cmd.setWidth 64
  | 1 => s.status.setWidth 64
  | 2 => s.slen.setWidth 64
  | 3 => s.len.setWidth 64
  | 4 => s.olen.setWidth 64
  | 5 => s.bits.setWidth 64
  | 6 => s.thrf
  | 7 => s.maxmag
  | 8 => s.thr
  | 9 => BitVec.ofNat 64 s.config.caplog2.val
  | _ => 0#64

/-- A host write of register `i`, `BUSY` being 0 (10 R20 to R32): a `CMD` write starts a command (30 R57), an integer
register keeps the low 32 bits (R32), a write of a read-only or reserved register is ignored. -/
def writeRegister (s : State) (i : Nat) (v : BitVec 64) : State :=
  match i with
  | 0 => acceptCommand (v.setWidth 32) s
  | 2 => s.setSlen (v.setWidth 32)
  | 3 => s.setLen (v.setWidth 32)
  | 4 => s.setOlen (v.setWidth 32)
  | 5 => s.setBits (v.setWidth 32)
  | 6 => s.setThrf v
  | 8 => s.setThr v
  | _ => s

/-- The value of a read handed to the host. -/
def reply (s : State) (r : Reply) : State := { s with replies := s.replies ++ [r] }

/-- A permitted access (20 R44): patterns are stored and returned unchanged, and a read has no side effect (20 R47). -/
def performAccess (a : Access) (s : State) : State :=
  match a with
  | .readReg i => reply s (.word64 (registerValue s i))
  | .writeReg i v => writeRegister s i v
  | .readSmp i => reply s (.word32 (s.readSmp i))
  | .writeSmp i v => s.setSmp (s.smp.write i v)
  | .readRe i => reply s (.word64 (s.readRe i))
  | .writeRe i v => s.setRe (s.re.write i v)
  | .readIm i => reply s (.word64 (s.readIm i))
  | .writeIm i v => s.setIm (s.im.write i v)

/-- A read of `STATUS`, permitted at any time (20 R45). -/
def isStatusRead (a : Access) : Bool := decide (a = .readReg 1)

/-- How an access made while `BUSY = 1` is refused (70 R162, R164). -/
def busyRefusal (a : Access) : Refusal :=
  match a with
  | .writeReg 0 v => .cmdWriteWhileBusy (v.setWidth 32)
  | a => .accessWhileBusy a

/-- The host-port rules permit the access in this state: its index addresses a location (20 R43), and the block is idle or
the access reads `STATUS` (20 R45). -/
def permitted (a : Access) (s : State) : Bool := a.wf s.cap && (!s.busy || isStatusRead a)

/-- One host access (20 R43 to R45). -/
def hostAccess (a : Access) (s : State) : Host.Outcome State Fault Refusal :=
  if a.wf s.cap = false then .fault (.noSuchElement a.space a.index)
  else if s.busy && !isStatusRead a then .refused (busyRefusal a)
  else .next (performAccess a s)

end Sys2Proof.Machine
end

