-- ==== Sys2Proof/Machine/Engine.lean ====
section
/-!
DEFINITION. The engine's turn and the other events (30_encoding.md R57, R58; 70_reset_and_hazards.md R156).
-/

namespace Sys2Proof.Machine

/-- The completion event (30 R58): the command in `CMD` is run, or `IllegalCommand` raised when the word is none (60 R141). -/
def completeCommand (s : State) : Host.Outcome State Fault Refusal :=
  match decode s.cmd with
  | .ok i => exec i s
  | .error _ => .next (raise (.illegalCommand s.cmd) s)

/-- The engine's turn: the completion when a command is accepted, otherwise the engine waits (10 R37, 30 R57). -/
def engineTurn (s : State) : Host.Outcome State Fault Refusal :=
  if s.busy then completeCommand s else .next s

/-- One event. -/
def takeEvent (e : Event) (s : State) : Host.Outcome State Fault Refusal :=
  match e with
  | .access a => hostAccess a s
  | .engine => engineTurn s
  | .reset => .next (hardwareReset s)

end Sys2Proof.Machine
end

