-- ==== Sys2Proof/Machine/Step.lean ====
section
/-!
DEFINITION. One step: the oldest pending event; with none pending, only the engine is left to move.
-/

namespace Sys2Proof.Machine

def step (s : State) : Host.Outcome State Fault Refusal :=
  match s.pending with
  | [] => engineTurn s
  | e :: rest => takeEvent e (s.setPending rest)

/-- The block fetches nothing (10 R37): a command comes to run when the host's write of `CMD` is accepted. This is that
acceptance, with the engine's turn as the next event (log 2). -/
def State.withFetchWord (s : State) (nbits w : Nat) : State := placeCommand (tableWord nbits w) s

end Sys2Proof.Machine
end

