-- ==== Sys2Proof/Machine/Schedule.lean ====
section
/-!
DEFINITION. The in-place iterative form of the transform (42_transform.md R100), which the spec allows in place of `fft`
because it gives the same bits. No meaning uses it: rule R99 is the normative definition.
-/

namespace Sys2Proof.Machine

/-- `brev_L(i)`: the low `L` bits of `i` reversed (42 R100). -/
def bitReverse : Nat → Nat → Nat
  | 0, _ => 0
  | l + 1, i => i % 2 * 2 ^ l + bitReverse l (i / 2)

/-- Element `i` of the result is element `brev_L(i)` of the sequence. -/
def bitReversed (l : Nat) (x : List Bin) : List Bin :=
  (List.range x.length).map fun i => x.getD (bitReverse l i) { re := PZERO, im := PZERO }

/-- The butterflies of length `m` at `base = 0, m, 2m, ...`, for a number of blocks. -/
def blockPass (c : Config) (m : Nat) : Nat → List Bin → List Bin
  | 0, x => x
  | blocks + 1, x =>
    combine c m (x.take (m / 2)) ((x.drop (m / 2)).take (m / 2)) ++ blockPass c m blocks (x.drop m)

/-- The passes of lengths `m, 2m, 4m, ...`. -/
def passes (c : Config) : Nat → Nat → List Bin → List Bin
  | 0, _, x => x
  | more + 1, m, x => passes c more (2 * m) (blockPass c m (x.length / m) x)

/-- `fft_iter(re, im)` (42 R100). -/
def fftIterative (c : Config) (x : List Bin) : List Bin :=
  if x.length ≤ 1 then x else passes c x.length.log2 2 (bitReversed x.length.log2 x)

end Sys2Proof.Machine
end

