-- ==== Sys2Proof/Safety.lean ====
section
/-!
DEFINITION. The invariant of the machine, the host protocol under which no step stops, and the vocabulary of the frame
statements.
-/

namespace Sys2Proof.Machine

/-- A status word the block can show (10 R22, 60 R140): bits 7:2 are 0, at most one of `BUSY` and `DONE` is 1, `DONE = 1`
implies `FAULT = 0`, and the code is one of 0 to 6. -/
def StatusLegal (st : BitVec 16) : Prop :=
  st.extractLsb' 2 6 = 0#6 ∧ (busyBit st && doneBit st) = false ∧ (doneBit st = true → faultField st = 0#8) ∧
    (faultField st).toNat ≤ 6

/-- The memories are in canonical form and hold draws already made (log 8). -/
def State.MemoriesLegal (s : State) : Prop :=
  s.smp.wf s.cap = true ∧ s.re.wf s.cap = true ∧ s.im.wf s.cap = true ∧
    s.smp.draw < s.draws ∧ s.re.draw < s.draws ∧ s.im.draw < s.draws

/-- The invariant: legal memories, a legal status word, and no command but `SRST` in progress while a fault is recorded
(30 R57, 60 R150). -/
def State.Inv (s : State) : Prop :=
  s.MemoriesLegal ∧ StatusLegal s.status ∧ (s.busy = true → s.faultCode ≠ 0#8 → s.cmd = encode .srst)

/-- The event is one the host-port rules allow in this state: an access must be `permitted`; the engine's turn and a reset
always are (20 R43, R45, 70 R156). -/
def eventAllowed (e : Event) (s : State) : Bool :=
  match e with
  | .access a => permitted a s
  | .engine => true
  | .reset => true

/-- The next event, if any, is allowed. -/
def State.protocolKept (s : State) : Bool :=
  match s.pending with
  | [] => true
  | e :: _ => eventAllowed e s

/-- `t` has every element of `SMP` of `s`. -/
def sameSmp (s t : State) : Prop := ∀ i, t.readSmp i = s.readSmp i
/-- `t` has every element of `RE` of `s`. -/
def sameRe (s t : State) : Prop := ∀ i, t.readRe i = s.readRe i
/-- `t` has every element of `IM` of `s`. -/
def sameIm (s t : State) : Prop := ∀ i, t.readIm i = s.readIm i

/-- The commands of a list run to completion one after another, each on the state the one before it left. -/
def runCommands : List Instr → State → Host.Outcome State Fault Refusal
  | [], s => .next s
  | i :: is, s =>
    match exec i s with
    | .next t => runCommands is t
    | .fault f => .fault f
    | .refused r => .refused r

end Sys2Proof.Machine
end

