-- ==== Sys2Proof/Certificates/Slice0/Obligations.lean ====
section
/-!
DEFINITION. The statements for the provers. `t.setX s.x = s` (and chains of it) says that `t` differs from `s` in `X` only:
putting the old `X` back into `t` gives `s`, every other field, memories included, being untouched.
-/

open Sys2Proof Sys2Proof.Machine

/-! ### Encoding -/

/-- 30 R56: a word selects a command exactly when it is the table's word, equivalently when `RSV = 0` and `OPC` is the table's. -/
def Obligations.WordsSelectCommandsExactly : Prop :=
  (∀ (w : CmdWord) (i : Instr), decode w = .ok i ↔ w = encode i) ∧
    (∀ (w : CmdWord) (i : Instr), decode w = .ok i ↔ rsvField w = 0#24 ∧ opcField w = opcField (encode i)) ∧
    [Instr.nop, .srst, .toflt, .clrim, .zpad, .fftrzp, .fft, .ifft, .magmax, .thrset, .gate, .trunc, .quant, .denoise].map
        encode =
      [0x00000000#32, 0x00000001#32, 0x00000010#32, 0x00000011#32, 0x00000012#32, 0x00000013#32, 0x00000020#32,
        0x00000021#32, 0x00000030#32, 0x00000031#32, 0x00000032#32, 0x00000040#32, 0x00000041#32, 0x00000050#32]

/-- 30 R56, R60: one word of each family decodes to its command, and two reserved words are rejected by name. -/
def Obligations.SampleWordsDecode : Prop :=
  decode 0x00000001#32 = .ok .srst ∧ decode 0x00000010#32 = .ok .toflt ∧ decode 0x00000020#32 = .ok .fft ∧
    decode 0x00000032#32 = .ok .gate ∧ decode 0x00000041#32 = .ok .quant ∧ decode 0x00000050#32 = .ok .denoise ∧
    decode 0x00000002#32 = .error (.reservedOpcode 0x02#8) ∧ decode 0x00000120#32 = .error (.reservedBits 0x00000120#32)

/-- 60 R141: an accepted word that is none of the 14 completes with code 1, and no other state changes. -/
def Obligations.IllegalWordRecordsCodeOne : Prop :=
  ∀ s : State, s.busy = true → (∀ i, s.cmd ≠ encode i) →
    engineTurn s = .next (s.setStatus (statusWord false false 1#8))

/-! ### Events -/

/-- 30 R58, 10 R37: the engine's turn, whether the next event or the only agent left, runs the accepted command on the state
(less the event); idle, it waits. A placed command word is run by the very next step. -/
def Obligations.StepRunsAcceptedCommand : Prop :=
  (∀ (s : State) (i : Instr), s.busy = true → decode s.cmd = .ok i →
      (s.pending = [] → step s = exec i s) ∧
        ∀ rest, s.pending = .engine :: rest → step s = exec i (s.setPending rest)) ∧
    (∀ s : State, s.busy = false →
      (s.pending = [] → step s = .next s) ∧
        ∀ rest, s.pending = .engine :: rest → step s = .next (s.setPending rest)) ∧
    ∀ (s : State) (i : Instr),
      step (s.withFetchWord 32 (encode i).toNat) =
        exec i ((s.setCmd (encode i)).setStatus (statusWord true false s.faultCode))

/-- 30 R58, 70 R167: every command completes, from any state, in a next state with `BUSY = 0`, and with `DONE = 1` and the
`FAULT` field kept, or a fault recorded, or (`SRST`) `STATUS = 0`. -/
def Obligations.EveryCommandCompletes : Prop :=
  ∀ (i : Instr) (s : State), ∃ t, exec i s = .next t ∧ t.busy = false ∧
    ((t.done = true ∧ t.faultCode = s.faultCode) ∨ (t.done = false ∧ t.faultCode ≠ 0#8) ∨ (i = .srst ∧ t.status = 0#16))

/-- 30 R57: acceptance. Refused while `BUSY = 1`; ignored in the fault state unless the word is `SRST`; otherwise `CMD <- w`,
`BUSY <- 1`, `DONE <- 0`, `FAULT` and everything else unchanged, and then the completion is what the engine's turn does. -/
def Obligations.CommandWriteIsAcceptance : Prop :=
  ∀ (s : State) (v : BitVec 64),
    (s.busy = true → hostAccess (.writeReg 0 v) s = .refused (.cmdWriteWhileBusy (v.extractLsb' 0 32))) ∧
      (s.busy = false → s.faultCode ≠ 0#8 → v.extractLsb' 0 32 ≠ 0x00000001#32 →
        hostAccess (.writeReg 0 v) s = .next s) ∧
      (s.busy = false → (s.faultCode = 0#8 ∨ v.extractLsb' 0 32 = 0x00000001#32) →
        ∃ t, hostAccess (.writeReg 0 v) s = .next t ∧ t.cmd = v.extractLsb' 0 32 ∧ t.busy = true ∧ t.done = false ∧
          t.faultCode = s.faultCode ∧ (t.setCmd s.cmd).setStatus s.status = s ∧ engineTurn t = completeCommand t)

/-- 10 R32: an integer register stores the low 32 bits of a write and reads them zero-extended; `THRF` and `THR` store and
read all 64 bits. Of a write of registers 2 to 6 or 8 nothing else changes: no other register, no memory, no parameter; of an
accepted write of `CMD` nothing else but `STATUS` (30 R57). -/
def Obligations.RegisterWritesKeepTheirBits : Prop :=
  ∀ (s : State) (v : BitVec 64), s.busy = false →
    (∀ i, i = 2 ∨ i = 3 ∨ i = 4 ∨ i = 5 →
        ∃ t, hostAccess (.writeReg i v) s = .next t ∧ registerValue t i = (v.extractLsb' 0 32).setWidth 64 ∧
          ∀ j, j ≠ i → registerValue t j = registerValue s j) ∧
      (∀ i, i = 6 ∨ i = 8 →
        ∃ t, hostAccess (.writeReg i v) s = .next t ∧ registerValue t i = v ∧
          ∀ j, j ≠ i → registerValue t j = registerValue s j) ∧
      (∃ t, hostAccess (.writeReg 2 v) s = .next t ∧ t.slen = v.extractLsb' 0 32 ∧ t.setSlen s.slen = s) ∧
      (∃ t, hostAccess (.writeReg 3 v) s = .next t ∧ t.len = v.extractLsb' 0 32 ∧ t.setLen s.len = s) ∧
      (∃ t, hostAccess (.writeReg 4 v) s = .next t ∧ t.olen = v.extractLsb' 0 32 ∧ t.setOlen s.olen = s) ∧
      (∃ t, hostAccess (.writeReg 5 v) s = .next t ∧ t.bits = v.extractLsb' 0 32 ∧ t.setBits s.bits = s) ∧
      (∃ t, hostAccess (.writeReg 6 v) s = .next t ∧ t.thrf = v ∧ t.setThrf s.thrf = s) ∧
      (∃ t, hostAccess (.writeReg 8 v) s = .next t ∧ t.thr = v ∧ t.setThr s.thr = s) ∧
      (s.faultCode = 0#8 ∨ v.extractLsb' 0 32 = 0x00000001#32 →
        ∃ t, hostAccess (.writeReg 0 v) s = .next t ∧ registerValue t 0 = (v.extractLsb' 0 32).setWidth 64 ∧
          (t.setCmd s.cmd).setStatus s.status = s)

/-- 20 R44, R47: a permitted read answers the register's or element's value and changes nothing else; a write to `STATUS`,
`MAXMAG`, `CAPLOG2` or a reserved register is ignored, and reserved registers read 0. -/
def Obligations.ReadsAndIgnoredWritesChangeNothing : Prop :=
  ∀ s : State, s.busy = false →
    (∀ i, i < 16 → hostAccess (.readReg i) s = .next { s with replies := s.replies ++ [.word64 (registerValue s i)] }) ∧
      (∀ i, i < s.cap →
        hostAccess (.readSmp i) s = .next { s with replies := s.replies ++ [.word32 (s.readSmp i)] } ∧
          hostAccess (.readRe i) s = .next { s with replies := s.replies ++ [.word64 (s.readRe i)] } ∧
          hostAccess (.readIm i) s = .next { s with replies := s.replies ++ [.word64 (s.readIm i)] }) ∧
      (∀ i v, i = 1 ∨ i = 7 ∨ (9 ≤ i ∧ i < 16) → hostAccess (.writeReg i v) s = .next s) ∧
      ∀ i, 10 ≤ i → registerValue s i = 0#64

/-- 20 R44: a write of an element stores the pattern unchanged and leaves every other element, memory and register as it was. -/
def Obligations.ElementWritesStoreThePattern : Prop :=
  ∀ (s : State) (i : Nat), s.busy = false → i < s.cap →
    (∀ v, ∃ t, hostAccess (.writeSmp i v) s = .next t ∧ t.readSmp i = v ∧ (∀ j, j ≠ i → t.readSmp j = s.readSmp j) ∧
        t.setSmp s.smp = s) ∧
      (∀ v, ∃ t, hostAccess (.writeRe i v) s = .next t ∧ t.readRe i = v ∧ (∀ j, j ≠ i → t.readRe j = s.readRe j) ∧
        t.setRe s.re = s) ∧
      ∀ v, ∃ t, hostAccess (.writeIm i v) s = .next t ∧ t.readIm i = v ∧ (∀ j, j ≠ i → t.readIm j = s.readIm j) ∧
        t.setIm s.im = s

/-- 20 R43, R45: an access whose index addresses no location stops with that fault; any other is answered exactly when the
block is idle or the access reads `STATUS`, and refused otherwise. -/
def Obligations.AccessesAnsweredExactlyWhenPermitted : Prop :=
  ∀ (a : Access) (s : State),
    (a.wf s.cap = false → hostAccess a s = .fault (.noSuchElement a.space a.index)) ∧
      (a.wf s.cap = true → ((∃ t, hostAccess a s = .next t) ↔ s.busy = false ∨ a = .readReg 1)) ∧
      (a.wf s.cap = true → s.busy = true → a ≠ .readReg 1 → ∃ r, hostAccess a s = .refused r)

/-- 70 R163: the poll of `STATUS` after an acceptance reads `BUSY = 1`, `DONE = 0` and `FAULT` as it was. -/
def Obligations.StatusPollShowsBusy : Prop :=
  ∀ (s : State) (w : CmdWord), s.busy = false → (s.faultCode = 0#8 ∨ w = 0x00000001#32) →
    ∃ v : BitVec 64,
      hostAccess (.readReg 1) (acceptCommand w s) =
          .next { acceptCommand w s with replies := s.replies ++ [.word64 v] } ∧
        v.getLsbD 0 = true ∧ v.getLsbD 1 = false ∧ v.extractLsb' 2 6 = 0#6 ∧ v.extractLsb' 8 8 = s.faultCode ∧
        v.extractLsb' 16 48 = 0#48

/-- 70 R156 to R158: a reset, a command in progress included, gives every register its reset value and makes every element
of the three memories a value of one fresh draw; the block's parameters stay. -/
def Obligations.ResetEventFromAnyState : Prop :=
  ∀ (s : State) (rest : List Event), s.pending = .reset :: rest →
    ∃ t, step s = .next t ∧
      (∀ i, registerValue t i = if i = 9 then BitVec.ofNat 64 s.config.caplog2.val else 0#64) ∧
      (∀ i, t.readSmp i = Config.freeSmp s.draws i ∧ t.readRe i = Config.freeRe s.draws i ∧
        t.readIm i = Config.freeIm s.draws i) ∧
      t.draws = s.draws + 1 ∧ t.config = s.config ∧ t.pending = rest ∧ t.replies = s.replies

/-- 70 R157: the register values right after reset, whatever the block's parameters: idle, not faulted, and any word written
to `CMD` is accepted. -/
def Obligations.RegistersAfterReset : Prop :=
  ∀ c : Config,
    (∀ i, registerValue (State.resetWith c) i = if i = 9 then BitVec.ofNat 64 c.caplog2.val else 0#64) ∧
      (State.resetWith c).busy = false ∧ (State.resetWith c).faultCode = 0#8 ∧
      ∀ v : BitVec 64, ∃ t, hostAccess (.writeReg 0 v) (State.resetWith c) = .next t ∧ t.cmd = v.extractLsb' 0 32 ∧
        t.busy = true

/-! ### The machine as a whole -/

/-- 20 R43, R45, 70 R162, R164: a step answers a next state exactly when the host keeps the port's protocol. That a step with no
event left is the engine's turn, and that an idle engine's turn answers, is the model's choice (logs 1 and 12); that a busy one
answers is 30 R58 and 70 R167, that a reset does 70 R156. -/
def Obligations.StepAnswersExactlyUnderProtocol : Prop :=
  ∀ s : State, (∃ t, step s = .next t) ↔ s.protocolKept = true

/-- The invariant holds right after reset, whatever the block's parameters; the block that `State.reset` shows (the model's
choice of parameters, logs 3 and 4) is one of them. -/
def Obligations.ResetMeetsInvariant : Prop :=
  (∀ c : Config, (State.resetWith c).Inv) ∧ State.reset = State.resetWith State.reset.config

/-- 10 R22, 20 R43, 60 R150: every step keeps the invariant (legal memories, legal status word, only `SRST` runs while a fault
is recorded). -/
def Obligations.StepKeepsInvariant : Prop :=
  ∀ s t : State, s.Inv → step s = .next t → t.Inv

/-- 10 R30: no step changes the parameters; register 9 reads as `CAPLOG2` for ever. -/
def Obligations.ParametersNeverChange : Prop :=
  ∀ s t : State, step s = .next t → t.config = s.config ∧ registerValue t 9 = BitVec.ofNat 64 s.config.caplog2.val

/-- 60 R149: a recorded fault stays until a reset, or until an accepted `SRST` completes; and no command but `SRST` is
accepted meanwhile. -/
def Obligations.FaultIsSticky : Prop :=
  ∀ s t : State, s.Inv → s.faultCode ≠ 0#8 → (∀ rest, s.pending ≠ .reset :: rest) → step s = .next t →
    (t.faultCode = s.faultCode ∧ (t.busy = true → t.cmd = encode .srst)) ∨
      (s.busy = true ∧ s.cmd = encode .srst ∧ t.status = 0#16)

/-! ### Numerics -/

/-- 40 R67: `rn` gives the sign it is given, the infinity from half a unit past the largest finite value on, and below that a
finite value to which no binary64 value is nearer, with an even fraction when another is equally near. -/
def Obligations.RoundingIsToNearestEven : Prop :=
  ∀ (neg : Bool) (n d : Nat), 0 < d →
    isNeg (rn neg n d) = neg ∧
      ((2 ^ 54 - 1) * 2 ^ 2044 * d ≤ n → rn neg n d = infinity neg) ∧
      (n < (2 ^ 54 - 1) * 2 ^ 2044 * d →
        isFinite (rn neg n d) = true ∧
          ∀ b : Binary64, isFinite b = true →
            ((n : Int) - units (rn neg n d) * d).natAbs ≤ ((n : Int) - units b * d).natAbs ∧
              (((n : Int) - units (rn neg n d) * d).natAbs = ((n : Int) - units b * d).natAbs →
                units b ≠ units (rn neg n d) → fracField (rn neg n d) % 2 = 0))

/-- 40 R72: the square root of a positive finite value is a non-negative finite value to which no binary64 value is nearer
(`2^1074` units are 1, so in units the square of the root is `units a * 2^1074`). -/
def Obligations.SquareRootIsNearest : Prop :=
  ∀ (c : Config) (a : Binary64), isFinite a = true → isZero a = false → isNeg a = false →
    isFinite (fsqrt c a) = true ∧ isNeg (fsqrt c a) = false ∧
      ∀ b : Binary64, isFinite b = true →
        (units b < units (fsqrt c a) → (units b + units (fsqrt c a)) ^ 2 ≤ 4 * (units a * 2 ^ 1074)) ∧
          (units (fsqrt c a) < units b → 4 * (units a * 2 ^ 1074) ≤ (units (fsqrt c a) + units b) ^ 2)

/-- 40 R68, R70: `fadd` and `fmul` are commutative, the sign of zero included, and when one order gives a NaN so does the
other. -/
def Obligations.AdditionAndMultiplicationCommute : Prop :=
  ∀ (c : Config) (a b : Binary64),
    isNaN (fadd c a b) = isNaN (fadd c b a) ∧ (isNaN (fadd c a b) = false → fadd c a b = fadd c b a) ∧
      isNaN (fmul c a b) = isNaN (fmul c b a) ∧ (isNaN (fmul c a b) = false → fmul c a b = fmul c b a)

/-- 40 R68, R70, R71, R72: what `fadd`, `fmul` and `fdiv` give on every pair of operands, and `fsqrt` on those that are no
positive finite value: the NaN cases, the infinities, the zeros with their signs, and on finite values `RN` of the exact sum,
product or quotient, in units of `2^-1074`. -/
def Obligations.ArithmeticResults : Prop :=
  ∀ (c : Config) (a b : Binary64),
    (isNaN a = true ∨ isNaN b = true →
        isNaN (fadd c a b) = true ∧ isNaN (fmul c a b) = true ∧ isNaN (fdiv c a b) = true) ∧
      (isInf a = true → isInf b = true → isNeg a ≠ isNeg b → isNaN (fadd c a b) = true) ∧
      (isInf a = true → isInf b = true → isNeg a = isNeg b → fadd c a b = a) ∧
      (isInf a = true → isFinite b = true → fadd c a b = a ∧ fadd c b a = a) ∧
      (isFinite a = true → isFinite b = true →
        fadd c a b =
          if value a + value b = 0 then if a = NZERO ∧ b = NZERO then NZERO else PZERO
          else rn (decide (value a + value b < 0)) (value a + value b).natAbs 1) ∧
      (isZero a = true → isInf b = true → isNaN (fmul c a b) = true ∧ isNaN (fmul c b a) = true) ∧
      (isInf a = true → isNaN b = false → isZero b = false →
        fmul c a b = infinity (isNeg a ^^ isNeg b) ∧ fmul c b a = infinity (isNeg a ^^ isNeg b)) ∧
      (isZero a = true → isFinite b = true →
        fmul c a b = zero (isNeg a ^^ isNeg b) ∧ fmul c b a = zero (isNeg a ^^ isNeg b)) ∧
      (isFinite a = true → isFinite b = true → isZero a = false → isZero b = false →
        fmul c a b = rn (decide (value a * value b < 0)) (value a * value b).natAbs (2 ^ 1074)) ∧
      ((isZero a = true ∧ isZero b = true) ∨ (isInf a = true ∧ isInf b = true) → isNaN (fdiv c a b) = true) ∧
      (isInf a = true → isFinite b = true → fdiv c a b = infinity (isNeg a ^^ isNeg b)) ∧
      (isFinite a = true → isInf b = true → fdiv c a b = zero (isNeg a ^^ isNeg b)) ∧
      (isFinite a = true → isZero a = false → isZero b = true → fdiv c a b = infinity (isNeg a ^^ isNeg b)) ∧
      (isZero a = true → isFinite b = true → isZero b = false → fdiv c a b = zero (isNeg a ^^ isNeg b)) ∧
      (isFinite a = true → isFinite b = true → isZero a = false → isZero b = false →
        fdiv c a b = rn (decide (value a * value b < 0)) ((value a).natAbs * 2 ^ 1074) (value b).natAbs) ∧
      (isNaN a = true ∨ (isNeg a = true ∧ isZero a = false) → isNaN (fsqrt c a) = true) ∧
      (isZero a = true ∨ a = infinity false → fsqrt c a = a)

/-- 40 R69: subtraction is addition of the negation for non-NaN operands, a NaN otherwise; and its consequences for equal
finite operands and for zeros. -/
def Obligations.SubtractionLaws : Prop :=
  ∀ c : Config,
    (∀ a b, isNaN a = false → isNaN b = false → fsub c a b = fadd c a (fneg b)) ∧
      (∀ a b, isNaN a = true ∨ isNaN b = true → isNaN (fsub c a b) = true) ∧
      (∀ x, isFinite x = true → fsub c x x = PZERO) ∧
      fsub c PZERO PZERO = PZERO ∧ fsub c NZERO PZERO = NZERO ∧ fsub c PZERO NZERO = PZERO ∧ fsub c NZERO NZERO = PZERO

/-- 40 R75: whatever is drawn, a NaN that an operation gives is quiet (fraction bit 51 set). -/
def Obligations.NaNResultsAreQuiet : Prop :=
  ∀ (c : Config) (a b : Binary64),
    (isNaN (fadd c a b) = true → 2 ^ 51 ≤ fracField (fadd c a b)) ∧
      (isNaN (fsub c a b) = true → 2 ^ 51 ≤ fracField (fsub c a b)) ∧
      (isNaN (fmul c a b) = true → 2 ^ 51 ≤ fracField (fmul c a b)) ∧
      (isNaN (fdiv c a b) = true → 2 ^ 51 ≤ fracField (fdiv c a b)) ∧
      (isNaN (fsqrt c a) = true → 2 ^ 51 ≤ fracField (fsqrt c a))

/-- 40 R73: `fneg` inverts bit 63 and keeps the other 63 bits, for every pattern. -/
def Obligations.NegationFlipsOnlyTheSign : Prop :=
  ∀ a : Binary64, (fneg a).getLsbD 63 = !a.getLsbD 63 ∧ (∀ i, i < 63 → (fneg a).getLsbD i = a.getLsbD i) ∧
    fneg (fneg a) = a ∧ fneg PZERO = NZERO

/-- 40 R74: `flt` is the order of the values, false for a NaN operand, with equal zeros and every finite value between the
infinities. -/
def Obligations.LessThanIsTheOrderOfValues : Prop :=
  ∀ a b : Binary64,
    (isNaN a = true ∨ isNaN b = true → flt a b = false) ∧
      (isFinite a = true → isFinite b = true → (flt a b = true ↔ value a < value b)) ∧
      (isFinite a = true → flt a (infinity false) = true ∧ flt (infinity true) a = true ∧
        flt (infinity false) a = false ∧ flt a (infinity true) = false) ∧
      flt (infinity true) (infinity false) = true ∧ flt (infinity false) (infinity true) = false ∧
      flt (infinity false) (infinity false) = false ∧
      flt (infinity true) (infinity true) = false ∧ value NZERO = value PZERO ∧ fgt a b = flt b a

/-- 40 R76: `i2f` is exact on `-2^31 .. 2^31`, and `i2f(0) = +0`. -/
def Obligations.IntegersConvertExactly : Prop :=
  ∀ v : Int, -(2 ^ 31) ≤ v → v ≤ 2 ^ 31 →
    isFinite (i2f v) = true ∧ value (i2f v) = v * 2 ^ 1074 ∧ (v = 0 → i2f v = PZERO)

/-- 40 R80: `round_int` of a finite value is a nearest integer; when two are equally near, the one of greater magnitude
(`away`) or the even one (`even`). -/
def Obligations.RoundIntIsNearest : Prop :=
  ∀ (ties : TieRule) (a : Binary64), isFinite a = true →
    2 * (roundInt ties a * 2 ^ 1074 - value a).natAbs ≤ 2 ^ 1074 ∧
      (2 * (roundInt ties a * 2 ^ 1074 - value a).natAbs = 2 ^ 1074 →
        match ties with
        | .away => (value a).natAbs < (roundInt ties a * 2 ^ 1074).natAbs
        | .even => roundInt ties a % 2 = 0)

/-- 40 R81: `wrap_W(r)` lies in the signed range of `W` bits, is congruent to `r`, and is `r` when `r` is in range. -/
def Obligations.WrapIsTheSignedResidue : Prop :=
  ∀ (w : Nat) (r : Int), w = 8 ∨ w = 16 ∨ w = 32 →
    -(2 ^ (w - 1)) ≤ wrapInt w r ∧ wrapInt w r < 2 ^ (w - 1) ∧ (wrapInt w r - r) % 2 ^ w = 0 ∧
      (-(2 ^ (w - 1)) ≤ r → r < 2 ^ (w - 1) → wrapInt w r = r)

/-- 40 R83, R84: the powers of two, and the padded length: 0 for 0, otherwise the smallest power of two not below `n`, which
stays within a capacity that is a power of two. -/
def Obligations.PowerOfTwoLaws : Prop :=
  (∀ n, ispow2 n = true ↔ ∃ j, n = 2 ^ j) ∧ npow2 0 = 0 ∧ (∀ n, ispow2 n = true → npow2 n = n) ∧
    (∀ n, n ≠ 0 → ispow2 n = false →
      ispow2 (npow2 n) = true ∧ n < npow2 n ∧ ∀ m, ispow2 m = true → n < m → npow2 n ≤ m) ∧
    ∀ n k, n ≤ 2 ^ k → npow2 n ≤ 2 ^ k

/-- 40 R78: every instantiation of `COS` and `SIN` has TRIG_ZERO and TRIG_FINITE. -/
def Obligations.TrigProperties : Prop :=
  ∀ c : Config, fcos c PZERO = ONE ∧ fsin c PZERO = PZERO ∧
    ∀ a, isFinite a = true →
      isFinite (fcos c a) = true ∧ units (fcos c a) ≤ units ONE ∧ isFinite (fsin c a) = true ∧ units (fsin c a) ≤ units ONE

/-- 43 R110: a magnitude is NaN exactly when a part of the bin is, and is otherwise never negative, not even `-0`. -/
def Obligations.MagnitudeIsNaNOrNonNegative : Prop :=
  ∀ (c : Config) (b : Bin),
    (isNaN (mag c b) = true ↔ isNaN b.re = true ∨ isNaN b.im = true) ∧
      (isNaN (mag c b) = false → isNeg (mag c b) = false)

/-! ### The transform -/

/-- 42 R95, R96: for every sub-transform length and index of the block the angle is finite, in `[0, pi)`, and `+0` for index
0, where the twiddle is `(1.0, -0.0)`. -/
def Obligations.AnglesAndFirstTwiddle : Prop :=
  ∀ (c : Config) (j k : Nat), 1 ≤ j → j ≤ 30 → k < 2 ^ (j - 1) →
    isFinite (angle c k (2 ^ j)) = true ∧ isNeg (angle c k (2 ^ j)) = false ∧ flt (angle c k (2 ^ j)) PI_D = true ∧
      angle c 0 (2 ^ j) = PZERO ∧ twiddle c 0 (2 ^ j) = { re := ONE, im := NZERO }

/-- 42 R99: `fft` returns a sequence of length 0 or 1 unchanged; on length `2^(d+1)` element `k` and element `k + 2^d` are the
sum and the difference of element `k` of the transform of the even-indexed elements and the rotated element `k` of the
transform of the odd-indexed ones. -/
def Obligations.ForwardTransformRecursion : Prop :=
  ∀ (c : Config) (x : List Bin),
    (x.length ≤ 1 → fft c x = x) ∧
      ∀ d, x.length = 2 ^ (d + 1) →
        (fft c x).length = 2 ^ (d + 1) ∧ (∀ k, (evens x)[k]? = x[2 * k]? ∧ (odds x)[k]? = x[2 * k + 1]?) ∧
          ∀ k, k < 2 ^ d → ∃ e o, (fft c (evens x))[k]? = some e ∧ (fft c (odds x))[k]? = some o ∧
            (fft c x)[k]? = some (butterflyAdd c e (rotate c (twiddle c k (2 ^ (d + 1))) o)) ∧
            (fft c x)[k + 2 ^ d]? = some (butterflySub c e (rotate c (twiddle c k (2 ^ (d + 1))) o))

/-- 42 R102: `ifft` negates the imaginary input, transforms, negates the imaginary output and divides by `n`, element by element
of the transform and no other; on one non-NaN element it is the identity. -/
def Obligations.InverseTransformByConjugation : Prop :=
  ∀ c : Config,
    (∀ x : List Bin, (ifft c x).length = (fft c (x.map fun b => { re := b.re, im := fneg b.im })).length) ∧
      (∀ (x : List Bin) (i : Nat) (b : Bin),
        (fft c (x.map fun b => { re := b.re, im := fneg b.im }))[i]? = some b →
          (ifft c x)[i]? = some { re := fdiv c b.re (i2f x.length), im := fdiv c (fneg b.im) (i2f x.length) }) ∧
      ∀ b : Bin, isNaN b.re = false → isNaN b.im = false → ifft c [b] = [b]

/-- 42 R100: the in-place iterative schedule gives the bits of `fft`, on every length that is 0 or a power of two. Where a bit
pattern is a NaN this rests on log 7 (one operation on the same operands gives the same NaN). -/
def Obligations.IterativeScheduleGivesTheSameBits : Prop :=
  ∀ (c : Config) (x : List Bin), (x.length = 0 ∨ ∃ d, x.length = 2 ^ d) → fftIterative c x = fft c x

/-! ### What each command does -/

/-- 45 R133: `NOP` changes nothing but `STATUS`, from any state. -/
def Obligations.NopCompletes : Prop :=
  ∀ s : State, exec .nop s = .next (s.setStatus (statusWord false true s.faultCode))

/-- 45 R134: `SRST` gives every register its reset value, `STATUS` 0 with `DONE = 0`, and keeps the memories, from any state. -/
def Obligations.SrstCompletes : Prop :=
  ∀ s : State, ∃ t, exec .srst s = .next t ∧
    (∀ i, registerValue t i = if i = 9 then BitVec.ofNat 64 s.config.caplog2.val else 0#64) ∧
    t.done = false ∧ t.smp = s.smp ∧ t.re = s.re ∧ t.im = s.im ∧ t.config = s.config ∧ t.draws = s.draws ∧
    t.pending = s.pending ∧ t.replies = s.replies

/-- 41 R86: `TOFLT` with `SLEN <= CAP`. -/
def Obligations.TofltCompletes : Prop :=
  ∀ s : State, s.slen.toNat ≤ s.cap →
    ∃ t, exec .toflt s = .next t ∧ (∀ i, i < s.slen.toNat → t.readRe i = i2f (s.readSmp i).toInt) ∧
      (∀ i, s.slen.toNat ≤ i → t.readRe i = s.readRe i) ∧ t.len = s.slen ∧ t.olen = s.slen ∧
      t.status = statusWord false true s.faultCode ∧
      (((t.setRe s.re).setLen s.len).setOlen s.olen).setStatus s.status = s

/-- 41 R87: `CLRIM` with `LEN <= CAP`. -/
def Obligations.ClrimCompletes : Prop :=
  ∀ s : State, s.len.toNat ≤ s.cap →
    ∃ t, exec .clrim s = .next t ∧ (∀ i, t.readIm i = if i < s.len.toNat then 0x0000000000000000#64 else s.readIm i) ∧
      t.status = statusWord false true s.faultCode ∧ (t.setIm s.im).setStatus s.status = s

/-- 41 R88: `ZPAD` with `LEN <= CAP`. -/
def Obligations.ZpadCompletes : Prop :=
  ∀ s : State, s.len.toNat ≤ s.cap →
    ∃ t, exec .zpad s = .next t ∧ t.len.toNat = npow2 s.len.toNat ∧
      (∀ i, s.len.toNat ≤ i → i < npow2 s.len.toNat → t.readRe i = 0x0000000000000000#64 ∧ t.readIm i = 0x0000000000000000#64) ∧
      (∀ i, i < s.len.toNat ∨ npow2 s.len.toNat ≤ i → t.readRe i = s.readRe i ∧ t.readIm i = s.readIm i) ∧
      t.status = statusWord false true s.faultCode ∧
      (((t.setRe s.re).setIm s.im).setLen s.len).setStatus s.status = s

/-- 41 R89, 30 R64: `FFTRZP` with `LEN <= CAP`: the transform of the real sequence padded with `+0` and a zero imaginary
sequence; the same registers and elements as after `ZPAD; CLRIM; FFT` (for elements that are NaN by log 7). -/
def Obligations.FftrzpCompletes : Prop :=
  ∀ s : State, s.len.toNat ≤ s.cap →
    ∃ t u, exec .fftrzp s = .next t ∧ t.len.toNat = npow2 s.len.toNat ∧
      (∀ i, i < npow2 s.len.toNat →
        (fft s.config ((List.range (npow2 s.len.toNat)).map fun i =>
            { re := if i < s.len.toNat then s.readRe i else PZERO, im := PZERO }))[i]? = some (t.bin i)) ∧
      (∀ i, npow2 s.len.toNat ≤ i → t.bin i = s.bin i) ∧ t.status = statusWord false true s.faultCode ∧
      (((t.setRe s.re).setIm s.im).setLen s.len).setStatus s.status = s ∧
      runCommands [.zpad, .clrim, .fft] s = .next u ∧ sameRe t u ∧ sameIm t u ∧ (u.setRe t.re).setIm t.im = t

/-- 42 R101: `FFT` with `LEN <= CAP`, 0 or a power of two: the transform in place. -/
def Obligations.FftCompletes : Prop :=
  ∀ s : State, s.len.toNat ≤ s.cap → (s.len.toNat = 0 ∨ ispow2 s.len.toNat = true) →
    ∃ t, exec .fft s = .next t ∧
      (∀ i, i < s.len.toNat → (fft s.config ((List.range s.len.toNat).map s.bin))[i]? = some (t.bin i)) ∧
      (∀ i, s.len.toNat ≤ i → t.bin i = s.bin i) ∧ t.status = statusWord false true s.faultCode ∧
      ((t.setRe s.re).setIm s.im).setStatus s.status = s

/-- 42 R103: `IFFT` with `LEN <= CAP`, 0 or a power of two: the inverse transform in place. -/
def Obligations.IfftCompletes : Prop :=
  ∀ s : State, s.len.toNat ≤ s.cap → (s.len.toNat = 0 ∨ ispow2 s.len.toNat = true) →
    ∃ t, exec .ifft s = .next t ∧
      (∀ i, i < s.len.toNat → (ifft s.config ((List.range s.len.toNat).map s.bin))[i]? = some (t.bin i)) ∧
      (∀ i, s.len.toNat ≤ i → t.bin i = s.bin i) ∧ t.status = statusWord false true s.faultCode ∧
      ((t.setRe s.re).setIm s.im).setStatus s.status = s

/-- 43 R111: `MAGMAX` with `LEN <= CAP`: a value that is not NaN and not negative, not below any magnitude that is not NaN, and
one of the magnitudes or `+0`. -/
def Obligations.MagmaxCompletes : Prop :=
  ∀ s : State, s.len.toNat ≤ s.cap →
    ∃ t, exec .magmax s = .next t ∧ isNaN t.maxmag = false ∧ isNeg t.maxmag = false ∧
      (∀ i, i < s.len.toNat → flt t.maxmag (mag s.config (s.bin i)) = false) ∧
      (t.maxmag = PZERO ∨ ∃ i, i < s.len.toNat ∧ t.maxmag = mag s.config (s.bin i)) ∧
      t.status = statusWord false true s.faultCode ∧ (t.setMaxmag s.maxmag).setStatus s.status = s

/-- 43 R112: `THRSET`, from any state: the product of whatever patterns `THRF` and `MAXMAG` hold. -/
def Obligations.ThrsetCompletes : Prop :=
  ∀ s : State, ∃ t, exec .thrset s = .next t ∧ t.thr = fmul s.config s.thrf s.maxmag ∧
    t.status = statusWord false true s.faultCode ∧ (t.setThr s.thr).setStatus s.status = s

/-- 43 R113: `GATE` with `LEN <= CAP`: a bin strictly below `THR` becomes `(+0, +0)`, every other keeps its bits. -/
def Obligations.GateCompletes : Prop :=
  ∀ s : State, s.len.toNat ≤ s.cap →
    ∃ t, exec .gate s = .next t ∧
      (∀ i, t.bin i =
        if i < s.len.toNat ∧ flt (mag s.config (s.bin i)) s.thr = true then { re := PZERO, im := PZERO } else s.bin i) ∧
      t.status = statusWord false true s.faultCode ∧ ((t.setRe s.re).setIm s.im).setStatus s.status = s

/-- 44 R120: `TRUNC` with `LEN <= CAP` and `OLEN <= LEN`: `LEN <- OLEN`, no element changed. -/
def Obligations.TruncCompletes : Prop :=
  ∀ s : State, s.len.toNat ≤ s.cap → s.olen.toNat ≤ s.len.toNat →
    exec .trunc s = .next ((s.setLen s.olen).setStatus (statusWord false true s.faultCode))

/-- 44 R121, R122: `QUANT` with `LEN <= CAP`, a legal width and finite values: each element the rounded value wrapped to the
width and sign-extended. -/
def Obligations.QuantCompletes : Prop :=
  ∀ s : State, s.len.toNat ≤ s.cap → s.bits = 8#32 ∨ s.bits = 16#32 ∨ s.bits = 32#32 →
    (∀ i, i < s.len.toNat → isFinite (s.readRe i) = true) →
    ∃ t, exec .quant s = .next t ∧
      (∀ i, i < s.len.toNat →
        (t.readSmp i).toInt = wrapInt s.bits.toNat (roundInt s.config.ties (s.readRe i)) ∧
          -(2 ^ (s.bits.toNat - 1)) ≤ (t.readSmp i).toInt ∧ (t.readSmp i).toInt < 2 ^ (s.bits.toNat - 1)) ∧
      (∀ i, s.len.toNat ≤ i → t.readSmp i = s.readSmp i) ∧ t.slen = s.len ∧ t.status = statusWord false true s.faultCode ∧
      ((t.setSmp s.smp).setSlen s.slen).setStatus s.status = s

/-- 45 R130, R131, 30 R64: `DENOISE` with `SLEN <= CAP` and a legal width always completes (no late `NonFinite`: every value
stays finite, whatever the samples, the fraction and the instantiation of `COS` and `SIN`), in the very state the eight
commands leave when run one after another (a NaN in `THR` included, by log 7), with the samples' length kept. -/
def Obligations.DenoiseCompletes : Prop :=
  ∀ s : State, s.slen.toNat ≤ s.cap → s.bits = 8#32 ∨ s.bits = 16#32 ∨ s.bits = 32#32 →
    ∃ t, exec .denoise s = .next t ∧ t.status = statusWord false true s.faultCode ∧
      runCommands [.toflt, .fftrzp, .magmax, .thrset, .gate, .ifft, .trunc, .quant] s = .next t ∧
      t.slen = s.slen ∧ t.len = s.slen ∧ t.olen = s.slen

/-! ### Faults -/

/-- 60 R143, R147: the register above `CAP` is found first, whatever else is wrong; code 3, and nothing but `STATUS` changes. -/
def Obligations.CapacityIsTheFirstCheck : Prop :=
  ∀ (i : Instr) (s : State),
    ((i = .toflt ∨ i = .denoise) ∧ s.cap < s.slen.toNat) ∨
        ((i = .clrim ∨ i = .zpad ∨ i = .fftrzp ∨ i = .fft ∨ i = .ifft ∨ i = .magmax ∨ i = .gate ∨ i = .trunc ∨ i = .quant) ∧
          s.cap < s.len.toNat) →
      exec i s = .next (s.setStatus (statusWord false false 3#8))

/-- 60 R142, R144, R145, R146, R148: each command's own check, `Capacity` being met: the code recorded, nothing but `STATUS`
changed. -/
def Obligations.OwnChecksRecordTheirCodes : Prop :=
  (∀ (i : Instr) (s : State), i = .fft ∨ i = .ifft → s.len.toNat ≤ s.cap → s.len.toNat ≠ 0 → ispow2 s.len.toNat = false →
      exec i s = .next (s.setStatus (statusWord false false 2#8))) ∧
    (∀ s : State, s.bits ≠ 8#32 → s.bits ≠ 16#32 → s.bits ≠ 32#32 →
      (s.len.toNat ≤ s.cap → exec .quant s = .next (s.setStatus (statusWord false false 4#8))) ∧
        (s.slen.toNat ≤ s.cap → exec .denoise s = .next (s.setStatus (statusWord false false 4#8)))) ∧
    (∀ s : State, s.len.toNat ≤ s.cap → s.len.toNat < s.olen.toNat →
      exec .trunc s = .next (s.setStatus (statusWord false false 5#8))) ∧
    ∀ (s : State) (i : Nat), s.len.toNat ≤ s.cap → s.bits = 8#32 ∨ s.bits = 16#32 ∨ s.bits = 32#32 → i < s.len.toNat →
      isFinite (s.readRe i) = false → exec .quant s = .next (s.setStatus (statusWord false false 6#8))

/-! ### Properties of the gate and of the pass -/

/-- 43 R114: `MAGMAX; THRSET; GATE` with fraction `+0` and a finite maximum zeroes nothing; with fraction 1 the threshold is the
maximum itself; on a silent channel nothing is removed. -/
def Obligations.GateEdgeCases : Prop :=
  ∀ s : State, s.len.toNat ≤ s.cap →
    ∃ t, runCommands [.magmax, .thrset, .gate] s = .next t ∧
      (s.thrf = PZERO → isFinite t.maxmag = true → t.thr = PZERO ∧ sameRe s t ∧ sameIm s t) ∧
      (s.thrf = ONE → t.thr = t.maxmag ∧
        ∀ i, i < s.len.toNat →
          t.bin i = if flt (mag s.config (s.bin i)) t.maxmag = true then { re := PZERO, im := PZERO } else s.bin i) ∧
      (isFinite s.thrf = true →
        (∀ i, i < s.len.toNat → isZero (s.readRe i) = true ∧ isZero (s.readIm i) = true) →
        t.maxmag = PZERO ∧ isZero t.thr = true ∧ sameRe s t ∧ sameIm s t)

/-- 45 R135 (d): two `DENOISE` runs of one block from states that agree on `SLEN`, `BITS`, `THRF` and the valid samples write
the same samples, whatever the scratch state held. -/
def Obligations.DenoiseIgnoresTheScratchState : Prop :=
  ∀ s s' t t' : State, s.config = s'.config → s.slen = s'.slen → s.bits = s'.bits → s.thrf = s'.thrf →
    (∀ i, i < s.slen.toNat → s.readSmp i = s'.readSmp i) →
    exec .denoise s = .next t → exec .denoise s' = .next t' →
    ∀ i, i < s.slen.toNat → t.readSmp i = t'.readSmp i

/-! ### Frames -/

/-- 45 R133, R134, 00 R12: what `NOP` and `SRST` leave alone. -/
def Obligations.SystemCommandsFrame : Prop :=
  (∀ s t : State, exec .nop s = .next t → t.setStatus s.status = s) ∧
    ∀ s t : State, exec .srst s = .next t →
      (((((((((t.setCmd s.cmd).setStatus s.status).setSlen s.slen).setLen s.len).setOlen s.olen).setBits s.bits).setThrf
        s.thrf).setMaxmag s.maxmag).setThr s.thr) = s ∧ sameSmp s t ∧ sameRe s t ∧ sameIm s t

/-- 41 R86 to R89, 00 R12: what `TOFLT`, `CLRIM`, `ZPAD` and `FFTRZP` leave alone, faulted or not. -/
def Obligations.ConvertAndPadFrame : Prop :=
  (∀ s t : State, exec .toflt s = .next t →
      (((t.setRe s.re).setLen s.len).setOlen s.olen).setStatus s.status = s ∧ sameSmp s t ∧ sameIm s t ∧
        ∀ i, s.slen.toNat ≤ i → t.readRe i = s.readRe i) ∧
    (∀ s t : State, exec .clrim s = .next t →
      (t.setIm s.im).setStatus s.status = s ∧ sameSmp s t ∧ sameRe s t ∧ ∀ i, s.len.toNat ≤ i → t.readIm i = s.readIm i) ∧
    (∀ s t : State, exec .zpad s = .next t →
      (((t.setRe s.re).setIm s.im).setLen s.len).setStatus s.status = s ∧ sameSmp s t ∧
        ∀ i, i < s.len.toNat ∨ npow2 s.len.toNat ≤ i → t.readRe i = s.readRe i ∧ t.readIm i = s.readIm i) ∧
    ∀ s t : State, exec .fftrzp s = .next t →
      (((t.setRe s.re).setIm s.im).setLen s.len).setStatus s.status = s ∧ sameSmp s t ∧
        ∀ i, npow2 s.len.toNat ≤ i → t.readRe i = s.readRe i ∧ t.readIm i = s.readIm i

/-- 42 R101, R103, 00 R12: what `FFT` and `IFFT` leave alone, faulted or not. -/
def Obligations.TransformFrame : Prop :=
  ∀ (k : Instr) (s t : State), k = .fft ∨ k = .ifft → exec k s = .next t →
    ((t.setRe s.re).setIm s.im).setStatus s.status = s ∧ sameSmp s t ∧
      ∀ i, s.len.toNat ≤ i → t.readRe i = s.readRe i ∧ t.readIm i = s.readIm i

/-- 43 R111 to R113, 00 R12: what `MAGMAX`, `THRSET` and `GATE` leave alone, faulted or not. -/
def Obligations.GateFrame : Prop :=
  (∀ s t : State, exec .magmax s = .next t →
      (t.setMaxmag s.maxmag).setStatus s.status = s ∧ sameSmp s t ∧ sameRe s t ∧ sameIm s t) ∧
    (∀ s t : State, exec .thrset s = .next t →
      (t.setThr s.thr).setStatus s.status = s ∧ sameSmp s t ∧ sameRe s t ∧ sameIm s t) ∧
    ∀ s t : State, exec .gate s = .next t →
      ((t.setRe s.re).setIm s.im).setStatus s.status = s ∧ sameSmp s t ∧
        ∀ i, s.len.toNat ≤ i ∨ flt (mag s.config (s.bin i)) s.thr = false →
          t.readRe i = s.readRe i ∧ t.readIm i = s.readIm i

/-- 44 R120, R122, 00 R12: what `TRUNC` and `QUANT` leave alone, faulted or not. -/
def Obligations.RequantFrame : Prop :=
  (∀ s t : State, exec .trunc s = .next t →
      (t.setLen s.len).setStatus s.status = s ∧ sameSmp s t ∧ sameRe s t ∧ sameIm s t) ∧
    ∀ s t : State, exec .quant s = .next t →
      ((t.setSmp s.smp).setSlen s.slen).setStatus s.status = s ∧ sameRe s t ∧ sameIm s t ∧
        ∀ i, s.len.toNat ≤ i → t.readSmp i = s.readSmp i

/-- 45 R130, R131: what `DENOISE` leaves alone: `CMD`, `BITS`, `THRF`, the parameters and the samples past `SLEN` always; the
elements of `RE` and `IM` past the padded length, and the draws, when it completes; all samples and `SLEN` when it faults. -/
def Obligations.DenoiseFrame : Prop :=
  ∀ s t : State, exec .denoise s = .next t →
    t.cmd = s.cmd ∧ t.bits = s.bits ∧ t.thrf = s.thrf ∧ t.config = s.config ∧ t.pending = s.pending ∧
      t.replies = s.replies ∧ t.slen = s.slen ∧ (∀ i, s.slen.toNat ≤ i → t.readSmp i = s.readSmp i) ∧
      (t.done = true → t.draws = s.draws ∧
        ∀ i, npow2 s.slen.toNat ≤ i → t.readRe i = s.readRe i ∧ t.readIm i = s.readIm i) ∧
      (t.done = false → t.smp = s.smp)
end

