-- ==== Sys2Proof/Laws/State.lean ====
section
/-!
SUPPORT. One lemma per field per update of State, each true by definition, so that no later proof unfolds a record update.
-/

namespace Sys2Proof.Machine

variable (s : State)

@[simp] theorem State.setCmd_config (v : CmdWord) : (s.setCmd v).config = s.config := rfl
@[simp] theorem State.setCmd_cmd (v : CmdWord) : (s.setCmd v).cmd = v := rfl
@[simp] theorem State.setCmd_status (v : CmdWord) : (s.setCmd v).status = s.status := rfl
@[simp] theorem State.setCmd_slen (v : CmdWord) : (s.setCmd v).slen = s.slen := rfl
@[simp] theorem State.setCmd_len (v : CmdWord) : (s.setCmd v).len = s.len := rfl
@[simp] theorem State.setCmd_olen (v : CmdWord) : (s.setCmd v).olen = s.olen := rfl
@[simp] theorem State.setCmd_bits (v : CmdWord) : (s.setCmd v).bits = s.bits := rfl
@[simp] theorem State.setCmd_thrf (v : CmdWord) : (s.setCmd v).thrf = s.thrf := rfl
@[simp] theorem State.setCmd_maxmag (v : CmdWord) : (s.setCmd v).maxmag = s.maxmag := rfl
@[simp] theorem State.setCmd_thr (v : CmdWord) : (s.setCmd v).thr = s.thr := rfl
@[simp] theorem State.setCmd_smp (v : CmdWord) : (s.setCmd v).smp = s.smp := rfl
@[simp] theorem State.setCmd_re (v : CmdWord) : (s.setCmd v).re = s.re := rfl
@[simp] theorem State.setCmd_im (v : CmdWord) : (s.setCmd v).im = s.im := rfl
@[simp] theorem State.setCmd_draws (v : CmdWord) : (s.setCmd v).draws = s.draws := rfl
@[simp] theorem State.setCmd_pending (v : CmdWord) : (s.setCmd v).pending = s.pending := rfl
@[simp] theorem State.setCmd_replies (v : CmdWord) : (s.setCmd v).replies = s.replies := rfl
@[simp] theorem State.setCmd_cap (v : CmdWord) : (s.setCmd v).cap = s.cap := rfl
@[simp] theorem State.setCmd_readSmp (v : CmdWord) (i : Nat) : (s.setCmd v).readSmp i = s.readSmp i := rfl
@[simp] theorem State.setCmd_readRe (v : CmdWord) (i : Nat) : (s.setCmd v).readRe i = s.readRe i := rfl
@[simp] theorem State.setCmd_readIm (v : CmdWord) (i : Nat) : (s.setCmd v).readIm i = s.readIm i := rfl
@[simp] theorem State.setCmd_bin (v : CmdWord) (i : Nat) : (s.setCmd v).bin i = s.bin i := rfl
@[simp] theorem State.setCmd_busy (v : CmdWord) : (s.setCmd v).busy = s.busy := rfl
@[simp] theorem State.setCmd_done (v : CmdWord) : (s.setCmd v).done = s.done := rfl
@[simp] theorem State.setCmd_faultCode (v : CmdWord) : (s.setCmd v).faultCode = s.faultCode := rfl
@[simp] theorem State.setCmd_self : s.setCmd s.cmd = s := rfl
@[simp] theorem State.setCmd_setCmd (u v : CmdWord) : (s.setCmd u).setCmd v = s.setCmd v := rfl

@[simp] theorem State.setStatus_config (v : BitVec 16) : (s.setStatus v).config = s.config := rfl
@[simp] theorem State.setStatus_cmd (v : BitVec 16) : (s.setStatus v).cmd = s.cmd := rfl
@[simp] theorem State.setStatus_status (v : BitVec 16) : (s.setStatus v).status = v := rfl
@[simp] theorem State.setStatus_slen (v : BitVec 16) : (s.setStatus v).slen = s.slen := rfl
@[simp] theorem State.setStatus_len (v : BitVec 16) : (s.setStatus v).len = s.len := rfl
@[simp] theorem State.setStatus_olen (v : BitVec 16) : (s.setStatus v).olen = s.olen := rfl
@[simp] theorem State.setStatus_bits (v : BitVec 16) : (s.setStatus v).bits = s.bits := rfl
@[simp] theorem State.setStatus_thrf (v : BitVec 16) : (s.setStatus v).thrf = s.thrf := rfl
@[simp] theorem State.setStatus_maxmag (v : BitVec 16) : (s.setStatus v).maxmag = s.maxmag := rfl
@[simp] theorem State.setStatus_thr (v : BitVec 16) : (s.setStatus v).thr = s.thr := rfl
@[simp] theorem State.setStatus_smp (v : BitVec 16) : (s.setStatus v).smp = s.smp := rfl
@[simp] theorem State.setStatus_re (v : BitVec 16) : (s.setStatus v).re = s.re := rfl
@[simp] theorem State.setStatus_im (v : BitVec 16) : (s.setStatus v).im = s.im := rfl
@[simp] theorem State.setStatus_draws (v : BitVec 16) : (s.setStatus v).draws = s.draws := rfl
@[simp] theorem State.setStatus_pending (v : BitVec 16) : (s.setStatus v).pending = s.pending := rfl
@[simp] theorem State.setStatus_replies (v : BitVec 16) : (s.setStatus v).replies = s.replies := rfl
@[simp] theorem State.setStatus_cap (v : BitVec 16) : (s.setStatus v).cap = s.cap := rfl
@[simp] theorem State.setStatus_readSmp (v : BitVec 16) (i : Nat) : (s.setStatus v).readSmp i = s.readSmp i := rfl
@[simp] theorem State.setStatus_readRe (v : BitVec 16) (i : Nat) : (s.setStatus v).readRe i = s.readRe i := rfl
@[simp] theorem State.setStatus_readIm (v : BitVec 16) (i : Nat) : (s.setStatus v).readIm i = s.readIm i := rfl
@[simp] theorem State.setStatus_bin (v : BitVec 16) (i : Nat) : (s.setStatus v).bin i = s.bin i := rfl
@[simp] theorem State.setStatus_self : s.setStatus s.status = s := rfl
@[simp] theorem State.setStatus_setStatus (u v : BitVec 16) : (s.setStatus u).setStatus v = s.setStatus v := rfl

@[simp] theorem State.setSlen_config (v : Reg32) : (s.setSlen v).config = s.config := rfl
@[simp] theorem State.setSlen_cmd (v : Reg32) : (s.setSlen v).cmd = s.cmd := rfl
@[simp] theorem State.setSlen_status (v : Reg32) : (s.setSlen v).status = s.status := rfl
@[simp] theorem State.setSlen_slen (v : Reg32) : (s.setSlen v).slen = v := rfl
@[simp] theorem State.setSlen_len (v : Reg32) : (s.setSlen v).len = s.len := rfl
@[simp] theorem State.setSlen_olen (v : Reg32) : (s.setSlen v).olen = s.olen := rfl
@[simp] theorem State.setSlen_bits (v : Reg32) : (s.setSlen v).bits = s.bits := rfl
@[simp] theorem State.setSlen_thrf (v : Reg32) : (s.setSlen v).thrf = s.thrf := rfl
@[simp] theorem State.setSlen_maxmag (v : Reg32) : (s.setSlen v).maxmag = s.maxmag := rfl
@[simp] theorem State.setSlen_thr (v : Reg32) : (s.setSlen v).thr = s.thr := rfl
@[simp] theorem State.setSlen_smp (v : Reg32) : (s.setSlen v).smp = s.smp := rfl
@[simp] theorem State.setSlen_re (v : Reg32) : (s.setSlen v).re = s.re := rfl
@[simp] theorem State.setSlen_im (v : Reg32) : (s.setSlen v).im = s.im := rfl
@[simp] theorem State.setSlen_draws (v : Reg32) : (s.setSlen v).draws = s.draws := rfl
@[simp] theorem State.setSlen_pending (v : Reg32) : (s.setSlen v).pending = s.pending := rfl
@[simp] theorem State.setSlen_replies (v : Reg32) : (s.setSlen v).replies = s.replies := rfl
@[simp] theorem State.setSlen_cap (v : Reg32) : (s.setSlen v).cap = s.cap := rfl
@[simp] theorem State.setSlen_readSmp (v : Reg32) (i : Nat) : (s.setSlen v).readSmp i = s.readSmp i := rfl
@[simp] theorem State.setSlen_readRe (v : Reg32) (i : Nat) : (s.setSlen v).readRe i = s.readRe i := rfl
@[simp] theorem State.setSlen_readIm (v : Reg32) (i : Nat) : (s.setSlen v).readIm i = s.readIm i := rfl
@[simp] theorem State.setSlen_bin (v : Reg32) (i : Nat) : (s.setSlen v).bin i = s.bin i := rfl
@[simp] theorem State.setSlen_busy (v : Reg32) : (s.setSlen v).busy = s.busy := rfl
@[simp] theorem State.setSlen_done (v : Reg32) : (s.setSlen v).done = s.done := rfl
@[simp] theorem State.setSlen_faultCode (v : Reg32) : (s.setSlen v).faultCode = s.faultCode := rfl
@[simp] theorem State.setSlen_self : s.setSlen s.slen = s := rfl
@[simp] theorem State.setSlen_setSlen (u v : Reg32) : (s.setSlen u).setSlen v = s.setSlen v := rfl

@[simp] theorem State.setLen_config (v : Reg32) : (s.setLen v).config = s.config := rfl
@[simp] theorem State.setLen_cmd (v : Reg32) : (s.setLen v).cmd = s.cmd := rfl
@[simp] theorem State.setLen_status (v : Reg32) : (s.setLen v).status = s.status := rfl
@[simp] theorem State.setLen_slen (v : Reg32) : (s.setLen v).slen = s.slen := rfl
@[simp] theorem State.setLen_len (v : Reg32) : (s.setLen v).len = v := rfl
@[simp] theorem State.setLen_olen (v : Reg32) : (s.setLen v).olen = s.olen := rfl
@[simp] theorem State.setLen_bits (v : Reg32) : (s.setLen v).bits = s.bits := rfl
@[simp] theorem State.setLen_thrf (v : Reg32) : (s.setLen v).thrf = s.thrf := rfl
@[simp] theorem State.setLen_maxmag (v : Reg32) : (s.setLen v).maxmag = s.maxmag := rfl
@[simp] theorem State.setLen_thr (v : Reg32) : (s.setLen v).thr = s.thr := rfl
@[simp] theorem State.setLen_smp (v : Reg32) : (s.setLen v).smp = s.smp := rfl
@[simp] theorem State.setLen_re (v : Reg32) : (s.setLen v).re = s.re := rfl
@[simp] theorem State.setLen_im (v : Reg32) : (s.setLen v).im = s.im := rfl
@[simp] theorem State.setLen_draws (v : Reg32) : (s.setLen v).draws = s.draws := rfl
@[simp] theorem State.setLen_pending (v : Reg32) : (s.setLen v).pending = s.pending := rfl
@[simp] theorem State.setLen_replies (v : Reg32) : (s.setLen v).replies = s.replies := rfl
@[simp] theorem State.setLen_cap (v : Reg32) : (s.setLen v).cap = s.cap := rfl
@[simp] theorem State.setLen_readSmp (v : Reg32) (i : Nat) : (s.setLen v).readSmp i = s.readSmp i := rfl
@[simp] theorem State.setLen_readRe (v : Reg32) (i : Nat) : (s.setLen v).readRe i = s.readRe i := rfl
@[simp] theorem State.setLen_readIm (v : Reg32) (i : Nat) : (s.setLen v).readIm i = s.readIm i := rfl
@[simp] theorem State.setLen_bin (v : Reg32) (i : Nat) : (s.setLen v).bin i = s.bin i := rfl
@[simp] theorem State.setLen_busy (v : Reg32) : (s.setLen v).busy = s.busy := rfl
@[simp] theorem State.setLen_done (v : Reg32) : (s.setLen v).done = s.done := rfl
@[simp] theorem State.setLen_faultCode (v : Reg32) : (s.setLen v).faultCode = s.faultCode := rfl
@[simp] theorem State.setLen_self : s.setLen s.len = s := rfl
@[simp] theorem State.setLen_setLen (u v : Reg32) : (s.setLen u).setLen v = s.setLen v := rfl

@[simp] theorem State.setOlen_config (v : Reg32) : (s.setOlen v).config = s.config := rfl
@[simp] theorem State.setOlen_cmd (v : Reg32) : (s.setOlen v).cmd = s.cmd := rfl
@[simp] theorem State.setOlen_status (v : Reg32) : (s.setOlen v).status = s.status := rfl
@[simp] theorem State.setOlen_slen (v : Reg32) : (s.setOlen v).slen = s.slen := rfl
@[simp] theorem State.setOlen_len (v : Reg32) : (s.setOlen v).len = s.len := rfl
@[simp] theorem State.setOlen_olen (v : Reg32) : (s.setOlen v).olen = v := rfl
@[simp] theorem State.setOlen_bits (v : Reg32) : (s.setOlen v).bits = s.bits := rfl
@[simp] theorem State.setOlen_thrf (v : Reg32) : (s.setOlen v).thrf = s.thrf := rfl
@[simp] theorem State.setOlen_maxmag (v : Reg32) : (s.setOlen v).maxmag = s.maxmag := rfl
@[simp] theorem State.setOlen_thr (v : Reg32) : (s.setOlen v).thr = s.thr := rfl
@[simp] theorem State.setOlen_smp (v : Reg32) : (s.setOlen v).smp = s.smp := rfl
@[simp] theorem State.setOlen_re (v : Reg32) : (s.setOlen v).re = s.re := rfl
@[simp] theorem State.setOlen_im (v : Reg32) : (s.setOlen v).im = s.im := rfl
@[simp] theorem State.setOlen_draws (v : Reg32) : (s.setOlen v).draws = s.draws := rfl
@[simp] theorem State.setOlen_pending (v : Reg32) : (s.setOlen v).pending = s.pending := rfl
@[simp] theorem State.setOlen_replies (v : Reg32) : (s.setOlen v).replies = s.replies := rfl
@[simp] theorem State.setOlen_cap (v : Reg32) : (s.setOlen v).cap = s.cap := rfl
@[simp] theorem State.setOlen_readSmp (v : Reg32) (i : Nat) : (s.setOlen v).readSmp i = s.readSmp i := rfl
@[simp] theorem State.setOlen_readRe (v : Reg32) (i : Nat) : (s.setOlen v).readRe i = s.readRe i := rfl
@[simp] theorem State.setOlen_readIm (v : Reg32) (i : Nat) : (s.setOlen v).readIm i = s.readIm i := rfl
@[simp] theorem State.setOlen_bin (v : Reg32) (i : Nat) : (s.setOlen v).bin i = s.bin i := rfl
@[simp] theorem State.setOlen_busy (v : Reg32) : (s.setOlen v).busy = s.busy := rfl
@[simp] theorem State.setOlen_done (v : Reg32) : (s.setOlen v).done = s.done := rfl
@[simp] theorem State.setOlen_faultCode (v : Reg32) : (s.setOlen v).faultCode = s.faultCode := rfl
@[simp] theorem State.setOlen_self : s.setOlen s.olen = s := rfl
@[simp] theorem State.setOlen_setOlen (u v : Reg32) : (s.setOlen u).setOlen v = s.setOlen v := rfl

@[simp] theorem State.setBits_config (v : Reg32) : (s.setBits v).config = s.config := rfl
@[simp] theorem State.setBits_cmd (v : Reg32) : (s.setBits v).cmd = s.cmd := rfl
@[simp] theorem State.setBits_status (v : Reg32) : (s.setBits v).status = s.status := rfl
@[simp] theorem State.setBits_slen (v : Reg32) : (s.setBits v).slen = s.slen := rfl
@[simp] theorem State.setBits_len (v : Reg32) : (s.setBits v).len = s.len := rfl
@[simp] theorem State.setBits_olen (v : Reg32) : (s.setBits v).olen = s.olen := rfl
@[simp] theorem State.setBits_bits (v : Reg32) : (s.setBits v).bits = v := rfl
@[simp] theorem State.setBits_thrf (v : Reg32) : (s.setBits v).thrf = s.thrf := rfl
@[simp] theorem State.setBits_maxmag (v : Reg32) : (s.setBits v).maxmag = s.maxmag := rfl
@[simp] theorem State.setBits_thr (v : Reg32) : (s.setBits v).thr = s.thr := rfl
@[simp] theorem State.setBits_smp (v : Reg32) : (s.setBits v).smp = s.smp := rfl
@[simp] theorem State.setBits_re (v : Reg32) : (s.setBits v).re = s.re := rfl
@[simp] theorem State.setBits_im (v : Reg32) : (s.setBits v).im = s.im := rfl
@[simp] theorem State.setBits_draws (v : Reg32) : (s.setBits v).draws = s.draws := rfl
@[simp] theorem State.setBits_pending (v : Reg32) : (s.setBits v).pending = s.pending := rfl
@[simp] theorem State.setBits_replies (v : Reg32) : (s.setBits v).replies = s.replies := rfl
@[simp] theorem State.setBits_cap (v : Reg32) : (s.setBits v).cap = s.cap := rfl
@[simp] theorem State.setBits_readSmp (v : Reg32) (i : Nat) : (s.setBits v).readSmp i = s.readSmp i := rfl
@[simp] theorem State.setBits_readRe (v : Reg32) (i : Nat) : (s.setBits v).readRe i = s.readRe i := rfl
@[simp] theorem State.setBits_readIm (v : Reg32) (i : Nat) : (s.setBits v).readIm i = s.readIm i := rfl
@[simp] theorem State.setBits_bin (v : Reg32) (i : Nat) : (s.setBits v).bin i = s.bin i := rfl
@[simp] theorem State.setBits_busy (v : Reg32) : (s.setBits v).busy = s.busy := rfl
@[simp] theorem State.setBits_done (v : Reg32) : (s.setBits v).done = s.done := rfl
@[simp] theorem State.setBits_faultCode (v : Reg32) : (s.setBits v).faultCode = s.faultCode := rfl
@[simp] theorem State.setBits_self : s.setBits s.bits = s := rfl
@[simp] theorem State.setBits_setBits (u v : Reg32) : (s.setBits u).setBits v = s.setBits v := rfl

@[simp] theorem State.setThrf_config (v : Binary64) : (s.setThrf v).config = s.config := rfl
@[simp] theorem State.setThrf_cmd (v : Binary64) : (s.setThrf v).cmd = s.cmd := rfl
@[simp] theorem State.setThrf_status (v : Binary64) : (s.setThrf v).status = s.status := rfl
@[simp] theorem State.setThrf_slen (v : Binary64) : (s.setThrf v).slen = s.slen := rfl
@[simp] theorem State.setThrf_len (v : Binary64) : (s.setThrf v).len = s.len := rfl
@[simp] theorem State.setThrf_olen (v : Binary64) : (s.setThrf v).olen = s.olen := rfl
@[simp] theorem State.setThrf_bits (v : Binary64) : (s.setThrf v).bits = s.bits := rfl
@[simp] theorem State.setThrf_thrf (v : Binary64) : (s.setThrf v).thrf = v := rfl
@[simp] theorem State.setThrf_maxmag (v : Binary64) : (s.setThrf v).maxmag = s.maxmag := rfl
@[simp] theorem State.setThrf_thr (v : Binary64) : (s.setThrf v).thr = s.thr := rfl
@[simp] theorem State.setThrf_smp (v : Binary64) : (s.setThrf v).smp = s.smp := rfl
@[simp] theorem State.setThrf_re (v : Binary64) : (s.setThrf v).re = s.re := rfl
@[simp] theorem State.setThrf_im (v : Binary64) : (s.setThrf v).im = s.im := rfl
@[simp] theorem State.setThrf_draws (v : Binary64) : (s.setThrf v).draws = s.draws := rfl
@[simp] theorem State.setThrf_pending (v : Binary64) : (s.setThrf v).pending = s.pending := rfl
@[simp] theorem State.setThrf_replies (v : Binary64) : (s.setThrf v).replies = s.replies := rfl
@[simp] theorem State.setThrf_cap (v : Binary64) : (s.setThrf v).cap = s.cap := rfl
@[simp] theorem State.setThrf_readSmp (v : Binary64) (i : Nat) : (s.setThrf v).readSmp i = s.readSmp i := rfl
@[simp] theorem State.setThrf_readRe (v : Binary64) (i : Nat) : (s.setThrf v).readRe i = s.readRe i := rfl
@[simp] theorem State.setThrf_readIm (v : Binary64) (i : Nat) : (s.setThrf v).readIm i = s.readIm i := rfl
@[simp] theorem State.setThrf_bin (v : Binary64) (i : Nat) : (s.setThrf v).bin i = s.bin i := rfl
@[simp] theorem State.setThrf_busy (v : Binary64) : (s.setThrf v).busy = s.busy := rfl
@[simp] theorem State.setThrf_done (v : Binary64) : (s.setThrf v).done = s.done := rfl
@[simp] theorem State.setThrf_faultCode (v : Binary64) : (s.setThrf v).faultCode = s.faultCode := rfl
@[simp] theorem State.setThrf_self : s.setThrf s.thrf = s := rfl
@[simp] theorem State.setThrf_setThrf (u v : Binary64) : (s.setThrf u).setThrf v = s.setThrf v := rfl

@[simp] theorem State.setMaxmag_config (v : Binary64) : (s.setMaxmag v).config = s.config := rfl
@[simp] theorem State.setMaxmag_cmd (v : Binary64) : (s.setMaxmag v).cmd = s.cmd := rfl
@[simp] theorem State.setMaxmag_status (v : Binary64) : (s.setMaxmag v).status = s.status := rfl
@[simp] theorem State.setMaxmag_slen (v : Binary64) : (s.setMaxmag v).slen = s.slen := rfl
@[simp] theorem State.setMaxmag_len (v : Binary64) : (s.setMaxmag v).len = s.len := rfl
@[simp] theorem State.setMaxmag_olen (v : Binary64) : (s.setMaxmag v).olen = s.olen := rfl
@[simp] theorem State.setMaxmag_bits (v : Binary64) : (s.setMaxmag v).bits = s.bits := rfl
@[simp] theorem State.setMaxmag_thrf (v : Binary64) : (s.setMaxmag v).thrf = s.thrf := rfl
@[simp] theorem State.setMaxmag_maxmag (v : Binary64) : (s.setMaxmag v).maxmag = v := rfl
@[simp] theorem State.setMaxmag_thr (v : Binary64) : (s.setMaxmag v).thr = s.thr := rfl
@[simp] theorem State.setMaxmag_smp (v : Binary64) : (s.setMaxmag v).smp = s.smp := rfl
@[simp] theorem State.setMaxmag_re (v : Binary64) : (s.setMaxmag v).re = s.re := rfl
@[simp] theorem State.setMaxmag_im (v : Binary64) : (s.setMaxmag v).im = s.im := rfl
@[simp] theorem State.setMaxmag_draws (v : Binary64) : (s.setMaxmag v).draws = s.draws := rfl
@[simp] theorem State.setMaxmag_pending (v : Binary64) : (s.setMaxmag v).pending = s.pending := rfl
@[simp] theorem State.setMaxmag_replies (v : Binary64) : (s.setMaxmag v).replies = s.replies := rfl
@[simp] theorem State.setMaxmag_cap (v : Binary64) : (s.setMaxmag v).cap = s.cap := rfl
@[simp] theorem State.setMaxmag_readSmp (v : Binary64) (i : Nat) : (s.setMaxmag v).readSmp i = s.readSmp i := rfl
@[simp] theorem State.setMaxmag_readRe (v : Binary64) (i : Nat) : (s.setMaxmag v).readRe i = s.readRe i := rfl
@[simp] theorem State.setMaxmag_readIm (v : Binary64) (i : Nat) : (s.setMaxmag v).readIm i = s.readIm i := rfl
@[simp] theorem State.setMaxmag_bin (v : Binary64) (i : Nat) : (s.setMaxmag v).bin i = s.bin i := rfl
@[simp] theorem State.setMaxmag_busy (v : Binary64) : (s.setMaxmag v).busy = s.busy := rfl
@[simp] theorem State.setMaxmag_done (v : Binary64) : (s.setMaxmag v).done = s.done := rfl
@[simp] theorem State.setMaxmag_faultCode (v : Binary64) : (s.setMaxmag v).faultCode = s.faultCode := rfl
@[simp] theorem State.setMaxmag_self : s.setMaxmag s.maxmag = s := rfl
@[simp] theorem State.setMaxmag_setMaxmag (u v : Binary64) : (s.setMaxmag u).setMaxmag v = s.setMaxmag v := rfl

@[simp] theorem State.setThr_config (v : Binary64) : (s.setThr v).config = s.config := rfl
@[simp] theorem State.setThr_cmd (v : Binary64) : (s.setThr v).cmd = s.cmd := rfl
@[simp] theorem State.setThr_status (v : Binary64) : (s.setThr v).status = s.status := rfl
@[simp] theorem State.setThr_slen (v : Binary64) : (s.setThr v).slen = s.slen := rfl
@[simp] theorem State.setThr_len (v : Binary64) : (s.setThr v).len = s.len := rfl
@[simp] theorem State.setThr_olen (v : Binary64) : (s.setThr v).olen = s.olen := rfl
@[simp] theorem State.setThr_bits (v : Binary64) : (s.setThr v).bits = s.bits := rfl
@[simp] theorem State.setThr_thrf (v : Binary64) : (s.setThr v).thrf = s.thrf := rfl
@[simp] theorem State.setThr_maxmag (v : Binary64) : (s.setThr v).maxmag = s.maxmag := rfl
@[simp] theorem State.setThr_thr (v : Binary64) : (s.setThr v).thr = v := rfl
@[simp] theorem State.setThr_smp (v : Binary64) : (s.setThr v).smp = s.smp := rfl
@[simp] theorem State.setThr_re (v : Binary64) : (s.setThr v).re = s.re := rfl
@[simp] theorem State.setThr_im (v : Binary64) : (s.setThr v).im = s.im := rfl
@[simp] theorem State.setThr_draws (v : Binary64) : (s.setThr v).draws = s.draws := rfl
@[simp] theorem State.setThr_pending (v : Binary64) : (s.setThr v).pending = s.pending := rfl
@[simp] theorem State.setThr_replies (v : Binary64) : (s.setThr v).replies = s.replies := rfl
@[simp] theorem State.setThr_cap (v : Binary64) : (s.setThr v).cap = s.cap := rfl
@[simp] theorem State.setThr_readSmp (v : Binary64) (i : Nat) : (s.setThr v).readSmp i = s.readSmp i := rfl
@[simp] theorem State.setThr_readRe (v : Binary64) (i : Nat) : (s.setThr v).readRe i = s.readRe i := rfl
@[simp] theorem State.setThr_readIm (v : Binary64) (i : Nat) : (s.setThr v).readIm i = s.readIm i := rfl
@[simp] theorem State.setThr_bin (v : Binary64) (i : Nat) : (s.setThr v).bin i = s.bin i := rfl
@[simp] theorem State.setThr_busy (v : Binary64) : (s.setThr v).busy = s.busy := rfl
@[simp] theorem State.setThr_done (v : Binary64) : (s.setThr v).done = s.done := rfl
@[simp] theorem State.setThr_faultCode (v : Binary64) : (s.setThr v).faultCode = s.faultCode := rfl
@[simp] theorem State.setThr_self : s.setThr s.thr = s := rfl
@[simp] theorem State.setThr_setThr (u v : Binary64) : (s.setThr u).setThr v = s.setThr v := rfl

@[simp] theorem State.setSmp_config (v : Mem 32) : (s.setSmp v).config = s.config := rfl
@[simp] theorem State.setSmp_cmd (v : Mem 32) : (s.setSmp v).cmd = s.cmd := rfl
@[simp] theorem State.setSmp_status (v : Mem 32) : (s.setSmp v).status = s.status := rfl
@[simp] theorem State.setSmp_slen (v : Mem 32) : (s.setSmp v).slen = s.slen := rfl
@[simp] theorem State.setSmp_len (v : Mem 32) : (s.setSmp v).len = s.len := rfl
@[simp] theorem State.setSmp_olen (v : Mem 32) : (s.setSmp v).olen = s.olen := rfl
@[simp] theorem State.setSmp_bits (v : Mem 32) : (s.setSmp v).bits = s.bits := rfl
@[simp] theorem State.setSmp_thrf (v : Mem 32) : (s.setSmp v).thrf = s.thrf := rfl
@[simp] theorem State.setSmp_maxmag (v : Mem 32) : (s.setSmp v).maxmag = s.maxmag := rfl
@[simp] theorem State.setSmp_thr (v : Mem 32) : (s.setSmp v).thr = s.thr := rfl
@[simp] theorem State.setSmp_smp (v : Mem 32) : (s.setSmp v).smp = v := rfl
@[simp] theorem State.setSmp_re (v : Mem 32) : (s.setSmp v).re = s.re := rfl
@[simp] theorem State.setSmp_im (v : Mem 32) : (s.setSmp v).im = s.im := rfl
@[simp] theorem State.setSmp_draws (v : Mem 32) : (s.setSmp v).draws = s.draws := rfl
@[simp] theorem State.setSmp_pending (v : Mem 32) : (s.setSmp v).pending = s.pending := rfl
@[simp] theorem State.setSmp_replies (v : Mem 32) : (s.setSmp v).replies = s.replies := rfl
@[simp] theorem State.setSmp_cap (v : Mem 32) : (s.setSmp v).cap = s.cap := rfl
@[simp] theorem State.setSmp_readRe (v : Mem 32) (i : Nat) : (s.setSmp v).readRe i = s.readRe i := rfl
@[simp] theorem State.setSmp_readIm (v : Mem 32) (i : Nat) : (s.setSmp v).readIm i = s.readIm i := rfl
@[simp] theorem State.setSmp_bin (v : Mem 32) (i : Nat) : (s.setSmp v).bin i = s.bin i := rfl
@[simp] theorem State.setSmp_busy (v : Mem 32) : (s.setSmp v).busy = s.busy := rfl
@[simp] theorem State.setSmp_done (v : Mem 32) : (s.setSmp v).done = s.done := rfl
@[simp] theorem State.setSmp_faultCode (v : Mem 32) : (s.setSmp v).faultCode = s.faultCode := rfl
@[simp] theorem State.setSmp_self : s.setSmp s.smp = s := rfl
@[simp] theorem State.setSmp_setSmp (u v : Mem 32) : (s.setSmp u).setSmp v = s.setSmp v := rfl

@[simp] theorem State.setRe_config (v : Mem 64) : (s.setRe v).config = s.config := rfl
@[simp] theorem State.setRe_cmd (v : Mem 64) : (s.setRe v).cmd = s.cmd := rfl
@[simp] theorem State.setRe_status (v : Mem 64) : (s.setRe v).status = s.status := rfl
@[simp] theorem State.setRe_slen (v : Mem 64) : (s.setRe v).slen = s.slen := rfl
@[simp] theorem State.setRe_len (v : Mem 64) : (s.setRe v).len = s.len := rfl
@[simp] theorem State.setRe_olen (v : Mem 64) : (s.setRe v).olen = s.olen := rfl
@[simp] theorem State.setRe_bits (v : Mem 64) : (s.setRe v).bits = s.bits := rfl
@[simp] theorem State.setRe_thrf (v : Mem 64) : (s.setRe v).thrf = s.thrf := rfl
@[simp] theorem State.setRe_maxmag (v : Mem 64) : (s.setRe v).maxmag = s.maxmag := rfl
@[simp] theorem State.setRe_thr (v : Mem 64) : (s.setRe v).thr = s.thr := rfl
@[simp] theorem State.setRe_smp (v : Mem 64) : (s.setRe v).smp = s.smp := rfl
@[simp] theorem State.setRe_re (v : Mem 64) : (s.setRe v).re = v := rfl
@[simp] theorem State.setRe_im (v : Mem 64) : (s.setRe v).im = s.im := rfl
@[simp] theorem State.setRe_draws (v : Mem 64) : (s.setRe v).draws = s.draws := rfl
@[simp] theorem State.setRe_pending (v : Mem 64) : (s.setRe v).pending = s.pending := rfl
@[simp] theorem State.setRe_replies (v : Mem 64) : (s.setRe v).replies = s.replies := rfl
@[simp] theorem State.setRe_cap (v : Mem 64) : (s.setRe v).cap = s.cap := rfl
@[simp] theorem State.setRe_readSmp (v : Mem 64) (i : Nat) : (s.setRe v).readSmp i = s.readSmp i := rfl
@[simp] theorem State.setRe_readIm (v : Mem 64) (i : Nat) : (s.setRe v).readIm i = s.readIm i := rfl
@[simp] theorem State.setRe_busy (v : Mem 64) : (s.setRe v).busy = s.busy := rfl
@[simp] theorem State.setRe_done (v : Mem 64) : (s.setRe v).done = s.done := rfl
@[simp] theorem State.setRe_faultCode (v : Mem 64) : (s.setRe v).faultCode = s.faultCode := rfl
@[simp] theorem State.setRe_self : s.setRe s.re = s := rfl
@[simp] theorem State.setRe_setRe (u v : Mem 64) : (s.setRe u).setRe v = s.setRe v := rfl

@[simp] theorem State.setIm_config (v : Mem 64) : (s.setIm v).config = s.config := rfl
@[simp] theorem State.setIm_cmd (v : Mem 64) : (s.setIm v).cmd = s.cmd := rfl
@[simp] theorem State.setIm_status (v : Mem 64) : (s.setIm v).status = s.status := rfl
@[simp] theorem State.setIm_slen (v : Mem 64) : (s.setIm v).slen = s.slen := rfl
@[simp] theorem State.setIm_len (v : Mem 64) : (s.setIm v).len = s.len := rfl
@[simp] theorem State.setIm_olen (v : Mem 64) : (s.setIm v).olen = s.olen := rfl
@[simp] theorem State.setIm_bits (v : Mem 64) : (s.setIm v).bits = s.bits := rfl
@[simp] theorem State.setIm_thrf (v : Mem 64) : (s.setIm v).thrf = s.thrf := rfl
@[simp] theorem State.setIm_maxmag (v : Mem 64) : (s.setIm v).maxmag = s.maxmag := rfl
@[simp] theorem State.setIm_thr (v : Mem 64) : (s.setIm v).thr = s.thr := rfl
@[simp] theorem State.setIm_smp (v : Mem 64) : (s.setIm v).smp = s.smp := rfl
@[simp] theorem State.setIm_re (v : Mem 64) : (s.setIm v).re = s.re := rfl
@[simp] theorem State.setIm_im (v : Mem 64) : (s.setIm v).im = v := rfl
@[simp] theorem State.setIm_draws (v : Mem 64) : (s.setIm v).draws = s.draws := rfl
@[simp] theorem State.setIm_pending (v : Mem 64) : (s.setIm v).pending = s.pending := rfl
@[simp] theorem State.setIm_replies (v : Mem 64) : (s.setIm v).replies = s.replies := rfl
@[simp] theorem State.setIm_cap (v : Mem 64) : (s.setIm v).cap = s.cap := rfl
@[simp] theorem State.setIm_readSmp (v : Mem 64) (i : Nat) : (s.setIm v).readSmp i = s.readSmp i := rfl
@[simp] theorem State.setIm_readRe (v : Mem 64) (i : Nat) : (s.setIm v).readRe i = s.readRe i := rfl
@[simp] theorem State.setIm_busy (v : Mem 64) : (s.setIm v).busy = s.busy := rfl
@[simp] theorem State.setIm_done (v : Mem 64) : (s.setIm v).done = s.done := rfl
@[simp] theorem State.setIm_faultCode (v : Mem 64) : (s.setIm v).faultCode = s.faultCode := rfl
@[simp] theorem State.setIm_self : s.setIm s.im = s := rfl
@[simp] theorem State.setIm_setIm (u v : Mem 64) : (s.setIm u).setIm v = s.setIm v := rfl

@[simp] theorem State.setPending_config (v : List Event) : (s.setPending v).config = s.config := rfl
@[simp] theorem State.setPending_cmd (v : List Event) : (s.setPending v).cmd = s.cmd := rfl
@[simp] theorem State.setPending_status (v : List Event) : (s.setPending v).status = s.status := rfl
@[simp] theorem State.setPending_slen (v : List Event) : (s.setPending v).slen = s.slen := rfl
@[simp] theorem State.setPending_len (v : List Event) : (s.setPending v).len = s.len := rfl
@[simp] theorem State.setPending_olen (v : List Event) : (s.setPending v).olen = s.olen := rfl
@[simp] theorem State.setPending_bits (v : List Event) : (s.setPending v).bits = s.bits := rfl
@[simp] theorem State.setPending_thrf (v : List Event) : (s.setPending v).thrf = s.thrf := rfl
@[simp] theorem State.setPending_maxmag (v : List Event) : (s.setPending v).maxmag = s.maxmag := rfl
@[simp] theorem State.setPending_thr (v : List Event) : (s.setPending v).thr = s.thr := rfl
@[simp] theorem State.setPending_smp (v : List Event) : (s.setPending v).smp = s.smp := rfl
@[simp] theorem State.setPending_re (v : List Event) : (s.setPending v).re = s.re := rfl
@[simp] theorem State.setPending_im (v : List Event) : (s.setPending v).im = s.im := rfl
@[simp] theorem State.setPending_draws (v : List Event) : (s.setPending v).draws = s.draws := rfl
@[simp] theorem State.setPending_pending (v : List Event) : (s.setPending v).pending = v := rfl
@[simp] theorem State.setPending_replies (v : List Event) : (s.setPending v).replies = s.replies := rfl
@[simp] theorem State.setPending_cap (v : List Event) : (s.setPending v).cap = s.cap := rfl
@[simp] theorem State.setPending_readSmp (v : List Event) (i : Nat) : (s.setPending v).readSmp i = s.readSmp i := rfl
@[simp] theorem State.setPending_readRe (v : List Event) (i : Nat) : (s.setPending v).readRe i = s.readRe i := rfl
@[simp] theorem State.setPending_readIm (v : List Event) (i : Nat) : (s.setPending v).readIm i = s.readIm i := rfl
@[simp] theorem State.setPending_bin (v : List Event) (i : Nat) : (s.setPending v).bin i = s.bin i := rfl
@[simp] theorem State.setPending_busy (v : List Event) : (s.setPending v).busy = s.busy := rfl
@[simp] theorem State.setPending_done (v : List Event) : (s.setPending v).done = s.done := rfl
@[simp] theorem State.setPending_faultCode (v : List Event) : (s.setPending v).faultCode = s.faultCode := rfl
@[simp] theorem State.setPending_self : s.setPending s.pending = s := rfl
@[simp] theorem State.setPending_setPending (u v : List Event) : (s.setPending u).setPending v = s.setPending v := rfl

@[simp] theorem raise_config (f : CmdFault) : (raise f s).config = s.config := rfl
@[simp] theorem raise_cmd (f : CmdFault) : (raise f s).cmd = s.cmd := rfl
@[simp] theorem raise_status (f : CmdFault) : (raise f s).status = faultedStatus f := rfl
@[simp] theorem raise_slen (f : CmdFault) : (raise f s).slen = s.slen := rfl
@[simp] theorem raise_len (f : CmdFault) : (raise f s).len = s.len := rfl
@[simp] theorem raise_olen (f : CmdFault) : (raise f s).olen = s.olen := rfl
@[simp] theorem raise_bits (f : CmdFault) : (raise f s).bits = s.bits := rfl
@[simp] theorem raise_thrf (f : CmdFault) : (raise f s).thrf = s.thrf := rfl
@[simp] theorem raise_maxmag (f : CmdFault) : (raise f s).maxmag = s.maxmag := rfl
@[simp] theorem raise_thr (f : CmdFault) : (raise f s).thr = s.thr := rfl
@[simp] theorem raise_smp (f : CmdFault) : (raise f s).smp = s.smp := rfl
@[simp] theorem raise_re (f : CmdFault) : (raise f s).re = s.re := rfl
@[simp] theorem raise_im (f : CmdFault) : (raise f s).im = s.im := rfl
@[simp] theorem raise_draws (f : CmdFault) : (raise f s).draws = s.draws := rfl
@[simp] theorem raise_pending (f : CmdFault) : (raise f s).pending = s.pending := rfl
@[simp] theorem raise_replies (f : CmdFault) : (raise f s).replies = s.replies := rfl
@[simp] theorem raise_cap (f : CmdFault) : (raise f s).cap = s.cap := rfl
@[simp] theorem raise_readSmp (f : CmdFault) (i : Nat) : (raise f s).readSmp i = s.readSmp i := rfl
@[simp] theorem raise_readRe (f : CmdFault) (i : Nat) : (raise f s).readRe i = s.readRe i := rfl
@[simp] theorem raise_readIm (f : CmdFault) (i : Nat) : (raise f s).readIm i = s.readIm i := rfl

@[simp] theorem finish_config : (finish s).config = s.config := rfl
@[simp] theorem finish_cmd : (finish s).cmd = s.cmd := rfl
@[simp] theorem finish_status : (finish s).status = completedStatus s.status := rfl
@[simp] theorem finish_slen : (finish s).slen = s.slen := rfl
@[simp] theorem finish_len : (finish s).len = s.len := rfl
@[simp] theorem finish_olen : (finish s).olen = s.olen := rfl
@[simp] theorem finish_bits : (finish s).bits = s.bits := rfl
@[simp] theorem finish_thrf : (finish s).thrf = s.thrf := rfl
@[simp] theorem finish_maxmag : (finish s).maxmag = s.maxmag := rfl
@[simp] theorem finish_thr : (finish s).thr = s.thr := rfl
@[simp] theorem finish_smp : (finish s).smp = s.smp := rfl
@[simp] theorem finish_re : (finish s).re = s.re := rfl
@[simp] theorem finish_im : (finish s).im = s.im := rfl
@[simp] theorem finish_draws : (finish s).draws = s.draws := rfl
@[simp] theorem finish_pending : (finish s).pending = s.pending := rfl
@[simp] theorem finish_replies : (finish s).replies = s.replies := rfl
@[simp] theorem finish_cap : (finish s).cap = s.cap := rfl
@[simp] theorem finish_readSmp (i : Nat) : (finish s).readSmp i = s.readSmp i := rfl
@[simp] theorem finish_readRe (i : Nat) : (finish s).readRe i = s.readRe i := rfl
@[simp] theorem finish_readIm (i : Nat) : (finish s).readIm i = s.readIm i := rfl

@[simp] theorem softReset_config : (softReset s).config = s.config := rfl
@[simp] theorem softReset_cmd : (softReset s).cmd = 0#32 := rfl
@[simp] theorem softReset_status : (softReset s).status = 0#16 := rfl
@[simp] theorem softReset_slen : (softReset s).slen = 0#32 := rfl
@[simp] theorem softReset_len : (softReset s).len = 0#32 := rfl
@[simp] theorem softReset_olen : (softReset s).olen = 0#32 := rfl
@[simp] theorem softReset_bits : (softReset s).bits = 0#32 := rfl
@[simp] theorem softReset_thrf : (softReset s).thrf = 0#64 := rfl
@[simp] theorem softReset_maxmag : (softReset s).maxmag = 0#64 := rfl
@[simp] theorem softReset_thr : (softReset s).thr = 0#64 := rfl
@[simp] theorem softReset_smp : (softReset s).smp = s.smp := rfl
@[simp] theorem softReset_re : (softReset s).re = s.re := rfl
@[simp] theorem softReset_im : (softReset s).im = s.im := rfl
@[simp] theorem softReset_draws : (softReset s).draws = s.draws := rfl
@[simp] theorem softReset_pending : (softReset s).pending = s.pending := rfl
@[simp] theorem softReset_replies : (softReset s).replies = s.replies := rfl
@[simp] theorem softReset_cap : (softReset s).cap = s.cap := rfl
@[simp] theorem softReset_readSmp (i : Nat) : (softReset s).readSmp i = s.readSmp i := rfl
@[simp] theorem softReset_readRe (i : Nat) : (softReset s).readRe i = s.readRe i := rfl
@[simp] theorem softReset_readIm (i : Nat) : (softReset s).readIm i = s.readIm i := rfl

@[simp] theorem hardwareReset_config : (hardwareReset s).config = s.config := rfl
@[simp] theorem hardwareReset_cmd : (hardwareReset s).cmd = 0#32 := rfl
@[simp] theorem hardwareReset_status : (hardwareReset s).status = 0#16 := rfl
@[simp] theorem hardwareReset_slen : (hardwareReset s).slen = 0#32 := rfl
@[simp] theorem hardwareReset_len : (hardwareReset s).len = 0#32 := rfl
@[simp] theorem hardwareReset_olen : (hardwareReset s).olen = 0#32 := rfl
@[simp] theorem hardwareReset_bits : (hardwareReset s).bits = 0#32 := rfl
@[simp] theorem hardwareReset_thrf : (hardwareReset s).thrf = 0#64 := rfl
@[simp] theorem hardwareReset_maxmag : (hardwareReset s).maxmag = 0#64 := rfl
@[simp] theorem hardwareReset_thr : (hardwareReset s).thr = 0#64 := rfl
@[simp] theorem hardwareReset_smp : (hardwareReset s).smp = Mem.unspecified s.draws := rfl
@[simp] theorem hardwareReset_re : (hardwareReset s).re = Mem.unspecified s.draws := rfl
@[simp] theorem hardwareReset_im : (hardwareReset s).im = Mem.unspecified s.draws := rfl
@[simp] theorem hardwareReset_draws : (hardwareReset s).draws = s.draws + 1 := rfl
@[simp] theorem hardwareReset_pending : (hardwareReset s).pending = s.pending := rfl
@[simp] theorem hardwareReset_replies : (hardwareReset s).replies = s.replies := rfl
@[simp] theorem hardwareReset_cap : (hardwareReset s).cap = s.cap := rfl

@[simp] theorem unspecifyScratch_config : (unspecifyScratch s).config = s.config := rfl
@[simp] theorem unspecifyScratch_cmd : (unspecifyScratch s).cmd = s.cmd := rfl
@[simp] theorem unspecifyScratch_status : (unspecifyScratch s).status = s.status := rfl
@[simp] theorem unspecifyScratch_slen : (unspecifyScratch s).slen = s.slen := rfl
@[simp] theorem unspecifyScratch_len : (unspecifyScratch s).len = Config.freeLen s.draws := rfl
@[simp] theorem unspecifyScratch_olen : (unspecifyScratch s).olen = Config.freeOlen s.draws := rfl
@[simp] theorem unspecifyScratch_bits : (unspecifyScratch s).bits = s.bits := rfl
@[simp] theorem unspecifyScratch_thrf : (unspecifyScratch s).thrf = s.thrf := rfl
@[simp] theorem unspecifyScratch_maxmag : (unspecifyScratch s).maxmag = Config.freeMaxmag s.draws := rfl
@[simp] theorem unspecifyScratch_thr : (unspecifyScratch s).thr = Config.freeThr s.draws := rfl
@[simp] theorem unspecifyScratch_smp : (unspecifyScratch s).smp = s.smp := rfl
@[simp] theorem unspecifyScratch_re : (unspecifyScratch s).re = Mem.unspecified s.draws := rfl
@[simp] theorem unspecifyScratch_im : (unspecifyScratch s).im = Mem.unspecified s.draws := rfl
@[simp] theorem unspecifyScratch_draws : (unspecifyScratch s).draws = s.draws + 1 := rfl
@[simp] theorem unspecifyScratch_pending : (unspecifyScratch s).pending = s.pending := rfl
@[simp] theorem unspecifyScratch_replies : (unspecifyScratch s).replies = s.replies := rfl
@[simp] theorem unspecifyScratch_cap : (unspecifyScratch s).cap = s.cap := rfl
@[simp] theorem unspecifyScratch_readSmp (i : Nat) : (unspecifyScratch s).readSmp i = s.readSmp i := rfl

@[simp] theorem storeBins_config (x : List Bin) : (s.storeBins x).config = s.config := rfl
@[simp] theorem storeBins_cmd (x : List Bin) : (s.storeBins x).cmd = s.cmd := rfl
@[simp] theorem storeBins_status (x : List Bin) : (s.storeBins x).status = s.status := rfl
@[simp] theorem storeBins_slen (x : List Bin) : (s.storeBins x).slen = s.slen := rfl
@[simp] theorem storeBins_len (x : List Bin) : (s.storeBins x).len = s.len := rfl
@[simp] theorem storeBins_olen (x : List Bin) : (s.storeBins x).olen = s.olen := rfl
@[simp] theorem storeBins_bits (x : List Bin) : (s.storeBins x).bits = s.bits := rfl
@[simp] theorem storeBins_thrf (x : List Bin) : (s.storeBins x).thrf = s.thrf := rfl
@[simp] theorem storeBins_maxmag (x : List Bin) : (s.storeBins x).maxmag = s.maxmag := rfl
@[simp] theorem storeBins_thr (x : List Bin) : (s.storeBins x).thr = s.thr := rfl
@[simp] theorem storeBins_smp (x : List Bin) : (s.storeBins x).smp = s.smp := rfl
@[simp] theorem storeBins_re (x : List Bin) : (s.storeBins x).re = s.re.writeList 0 (x.map Bin.re) := rfl
@[simp] theorem storeBins_im (x : List Bin) : (s.storeBins x).im = s.im.writeList 0 (x.map Bin.im) := rfl
@[simp] theorem storeBins_draws (x : List Bin) : (s.storeBins x).draws = s.draws := rfl
@[simp] theorem storeBins_pending (x : List Bin) : (s.storeBins x).pending = s.pending := rfl
@[simp] theorem storeBins_replies (x : List Bin) : (s.storeBins x).replies = s.replies := rfl
@[simp] theorem storeBins_cap (x : List Bin) : (s.storeBins x).cap = s.cap := rfl
@[simp] theorem storeBins_readSmp (x : List Bin) (i : Nat) : (s.storeBins x).readSmp i = s.readSmp i := rfl

@[simp] theorem reply_config (r : Reply) : (reply s r).config = s.config := rfl
@[simp] theorem reply_cmd (r : Reply) : (reply s r).cmd = s.cmd := rfl
@[simp] theorem reply_status (r : Reply) : (reply s r).status = s.status := rfl
@[simp] theorem reply_slen (r : Reply) : (reply s r).slen = s.slen := rfl
@[simp] theorem reply_len (r : Reply) : (reply s r).len = s.len := rfl
@[simp] theorem reply_olen (r : Reply) : (reply s r).olen = s.olen := rfl
@[simp] theorem reply_bits (r : Reply) : (reply s r).bits = s.bits := rfl
@[simp] theorem reply_thrf (r : Reply) : (reply s r).thrf = s.thrf := rfl
@[simp] theorem reply_maxmag (r : Reply) : (reply s r).maxmag = s.maxmag := rfl
@[simp] theorem reply_thr (r : Reply) : (reply s r).thr = s.thr := rfl
@[simp] theorem reply_smp (r : Reply) : (reply s r).smp = s.smp := rfl
@[simp] theorem reply_re (r : Reply) : (reply s r).re = s.re := rfl
@[simp] theorem reply_im (r : Reply) : (reply s r).im = s.im := rfl
@[simp] theorem reply_draws (r : Reply) : (reply s r).draws = s.draws := rfl
@[simp] theorem reply_pending (r : Reply) : (reply s r).pending = s.pending := rfl
@[simp] theorem reply_replies (r : Reply) : (reply s r).replies = s.replies ++ [r] := rfl
@[simp] theorem reply_cap (r : Reply) : (reply s r).cap = s.cap := rfl
@[simp] theorem reply_readSmp (r : Reply) (i : Nat) : (reply s r).readSmp i = s.readSmp i := rfl
@[simp] theorem reply_readRe (r : Reply) (i : Nat) : (reply s r).readRe i = s.readRe i := rfl
@[simp] theorem reply_readIm (r : Reply) (i : Nat) : (reply s r).readIm i = s.readIm i := rfl

end Sys2Proof.Machine
end

