-- ==== Sys2Proof/Laws/Flags.lean ====
section
/-!
SUPPORT. The fields of a status word, and what acceptance, completion and a fault make of them.
-/

namespace Sys2Proof.Machine

variable (b d : Bool) (f : BitVec 8)

@[simp] theorem busyBit_statusWord : busyBit (statusWord b d f) = b := by
  revert b d f; decide +kernel

@[simp] theorem doneBit_statusWord : doneBit (statusWord b d f) = d := by
  revert b d f; decide +kernel

@[simp] theorem faultField_statusWord : faultField (statusWord b d f) = f := by
  revert b d f; decide +kernel

/-- Bits 7:2 of a status word are 0 (10 R22). -/
theorem statusWord_reserved : (statusWord b d f).extractLsb' 2 6 = 0#6 := by
  revert b d f; decide +kernel

@[simp] theorem busyBit_zero : busyBit 0#16 = false := by decide
@[simp] theorem doneBit_zero : doneBit 0#16 = false := by decide
@[simp] theorem faultField_zero : faultField 0#16 = 0#8 := by decide

theorem faultCodeOf_ne_zero (g : CmdFault) : faultCodeOf g ≠ 0#8 := by
  cases g <;> simp [faultCodeOf]

theorem faultCodeOf_le_six (g : CmdFault) : (faultCodeOf g).toNat ≤ 6 := by
  cases g <;> simp [faultCodeOf]

variable (s : State)

@[simp] theorem raise_busy (g : CmdFault) : (raise g s).busy = false := by simp [State.busy, faultedStatus]
@[simp] theorem raise_done (g : CmdFault) : (raise g s).done = false := by simp [State.done, faultedStatus]
@[simp] theorem raise_faultCode (g : CmdFault) : (raise g s).faultCode = faultCodeOf g := by
  simp [State.faultCode, faultedStatus]
@[simp] theorem finish_busy : (finish s).busy = false := by simp [State.busy, completedStatus]
@[simp] theorem finish_done : (finish s).done = true := by simp [State.done, completedStatus]
@[simp] theorem finish_faultCode : (finish s).faultCode = s.faultCode := by simp [State.faultCode, completedStatus]
@[simp] theorem softReset_busy : (softReset s).busy = false := busyBit_zero
@[simp] theorem softReset_done : (softReset s).done = false := doneBit_zero
@[simp] theorem softReset_faultCode : (softReset s).faultCode = 0#8 := faultField_zero
@[simp] theorem hardwareReset_busy : (hardwareReset s).busy = false := busyBit_zero
@[simp] theorem hardwareReset_done : (hardwareReset s).done = false := doneBit_zero
@[simp] theorem hardwareReset_faultCode : (hardwareReset s).faultCode = 0#8 := faultField_zero

/-- Everything acceptance can do (30 R57). -/
theorem acceptCommand_cases (w : CmdWord) :
    (s.faultCode ≠ 0#8 ∧ w ≠ 0x00000001#32 ∧ acceptCommand w s = s) ∨
      ((s.faultCode = 0#8 ∨ w = 0x00000001#32) ∧
        acceptCommand w s = (s.setCmd w).setStatus (statusWord true false s.faultCode)) := by
  unfold acceptCommand
  split
  · next h => exact .inl ⟨h.1, h.2, rfl⟩
  · next h => exact .inr ⟨by tauto, rfl⟩

end Sys2Proof.Machine
end

