-- ==== Sys2Proof/Laws/Memory.lean ====
section
/-!
SUPPORT. The laws of the element memories: a read after a write of the same element gives the value written, a write leaves
every other element alone, and every memory operation keeps the canonical form. The read laws need no canonical form.
-/

namespace Sys2Proof.Machine

variable {w : Nat}

theorem cellAt_cellPut_same (l : List (Nat × BitVec w)) (i : Nat) (v : BitVec w) : cellAt (cellPut i v l) i = some v := by
  induction l with
  | nil => simp [cellPut, cellAt]
  | cons p rest ih =>
    obtain ⟨j, u⟩ := p
    rcases Nat.lt_trichotomy i j with h | h | h
    · simp [cellPut, cellAt, h]
    · simp [cellPut, cellAt, h]
    · simp [cellPut, cellAt, Nat.lt_asymm h, Nat.ne_of_gt h, Nat.ne_of_lt h, ih]

theorem cellAt_cellPut_other (l : List (Nat × BitVec w)) {i j : Nat} (v : BitVec w) (hne : j ≠ i) :
    cellAt (cellPut i v l) j = cellAt l j := by
  induction l with
  | nil => simp [cellPut, cellAt, hne.symm]
  | cons p rest ih =>
    obtain ⟨k, u⟩ := p
    rcases Nat.lt_trichotomy i k with h | h | h
    · simp [cellPut, cellAt, h, hne.symm]
    · subst h; simp [cellPut, cellAt, hne.symm]
    · simp only [cellPut, Nat.lt_asymm h, Nat.ne_of_gt h, if_false, cellAt]
      split
      · rfl
      · exact ih

section Reads

variable (free : Nat → Nat → BitVec w) (m : Mem w)

@[simp] theorem Mem.read_write_same (i : Nat) (v : BitVec w) : (m.write i v).read free i = v := by
  simp [Mem.read, Mem.write, cellAt_cellPut_same]

theorem Mem.read_write_other {i j : Nat} (v : BitVec w) (hne : j ≠ i) :
    (m.write i v).read free j = m.read free j := by
  simp [Mem.read, Mem.write, cellAt_cellPut_other _ _ hne]

theorem Mem.read_write (i j : Nat) (v : BitVec w) :
    (m.write i v).read free j = if j = i then v else m.read free j := by
  split
  · next h => subst h; exact Mem.read_write_same free m j v
  · next h => exact Mem.read_write_other free m v h

/-- An element below the first written one keeps its value. -/
theorem Mem.read_writeList_below (vs : List (BitVec w)) (m : Mem w) {i j : Nat} (h : j < i) :
    (m.writeList i vs).read free j = m.read free j := by
  induction vs generalizing m i with
  | nil => rfl
  | cons v vs ih =>
    rw [Mem.writeList, ih _ (Nat.lt_succ_of_lt h), Mem.read_write_other free m v (Nat.ne_of_lt h)]

/-- What a run of consecutive writes does to every element. -/
theorem Mem.read_writeList (vs : List (BitVec w)) (m : Mem w) (i j : Nat) :
    (m.writeList i vs).read free j = if i ≤ j then (vs[j - i]?).getD (m.read free j) else m.read free j := by
  induction vs generalizing m i with
  | nil => simp [Mem.writeList]
  | cons v vs ih =>
    rw [Mem.writeList]
    rcases Nat.lt_trichotomy j i with h | h | h
    · rw [Mem.read_writeList_below free vs _ (Nat.lt_succ_of_lt h), Mem.read_write_other free m v (Nat.ne_of_lt h)]
      simp [Nat.not_le.mpr h]
    · subst h
      rw [Mem.read_writeList_below free vs _ (Nat.lt_succ_self j)]
      simp
    · obtain ⟨d, rfl⟩ : ∃ d, j = i + 1 + d := ⟨j - (i + 1), by omega⟩
      rw [ih, Mem.read_write_other free m v (by omega)]
      have e : i + 1 + d - i = d + 1 := by omega
      simp [e, show i ≤ i + 1 + d by omega]

/-- What filling a list of elements with one value does to every element. -/
theorem Mem.read_fillAt (v : BitVec w) (is : List Nat) (m : Mem w) (j : Nat) :
    (m.fillAt v is).read free j = if j ∈ is then v else m.read free j := by
  induction is generalizing m with
  | nil => simp [Mem.fillAt]
  | cons i is ih =>
    rw [Mem.fillAt, ih, Mem.read_write]
    by_cases h : j ∈ is <;> by_cases h' : j = i <;> simp [h, h']

@[simp] theorem Mem.read_unspecified (d i : Nat) : (Mem.unspecified d : Mem w).read free i = free d i := rfl

end Reads

@[simp] theorem Mem.write_draw (m : Mem w) (i : Nat) (v : BitVec w) : (m.write i v).draw = m.draw := rfl

@[simp] theorem Mem.writeList_draw (vs : List (BitVec w)) (m : Mem w) (i : Nat) : (m.writeList i vs).draw = m.draw := by
  induction vs generalizing m i with
  | nil => rfl
  | cons v vs ih => rw [Mem.writeList, ih, Mem.write_draw]

@[simp] theorem Mem.fillAt_draw (v : BitVec w) (is : List Nat) (m : Mem w) : (m.fillAt v is).draw = m.draw := by
  induction is generalizing m with
  | nil => rfl
  | cons i is ih => rw [Mem.fillAt, ih, Mem.write_draw]

/-! The canonical form is kept. -/

theorem cellsRise_cellPut {cap : Nat} (l : List (Nat × BitVec w)) {lo i : Nat} (v : BitVec w)
    (h : cellsRise cap lo l = true) (hlo : lo ≤ i) (hi : i < cap) : cellsRise cap lo (cellPut i v l) = true := by
  induction l generalizing lo with
  | nil => simp [cellPut, cellsRise, hlo, hi]
  | cons p rest ih =>
    obtain ⟨j, u⟩ := p
    simp only [cellsRise, Bool.and_eq_true, decide_eq_true_eq] at h
    obtain ⟨⟨hlj, hjc⟩, hrest⟩ := h
    rcases Nat.lt_trichotomy i j with hij | hij | hij
    · simp [cellPut, cellsRise, hij, hlo, hi, hjc, hrest, Nat.succ_le_of_lt hij]
    · subst hij; simp [cellPut, cellsRise, hlj, hjc, hrest]
    · simp [cellPut, cellsRise, Nat.lt_asymm hij, Nat.ne_of_gt hij, hlj, hjc, ih hrest (Nat.succ_le_of_lt hij)]

theorem Mem.wf_write {cap : Nat} {m : Mem w} (h : m.wf cap = true) {i : Nat} (hi : i < cap) (v : BitVec w) :
    (m.write i v).wf cap = true :=
  cellsRise_cellPut m.cells v h (Nat.zero_le i) hi

theorem Mem.wf_writeList {cap : Nat} (vs : List (BitVec w)) {m : Mem w} (h : m.wf cap = true) {i : Nat}
    (hi : i + vs.length ≤ cap) : (m.writeList i vs).wf cap = true := by
  induction vs generalizing m i with
  | nil => exact h
  | cons v vs ih =>
    simp only [List.length_cons] at hi
    exact ih (Mem.wf_write h (by omega) v) (by omega)

theorem Mem.wf_fillAt {cap : Nat} (v : BitVec w) (is : List Nat) {m : Mem w} (h : m.wf cap = true)
    (hi : ∀ i ∈ is, i < cap) : (m.fillAt v is).wf cap = true := by
  induction is generalizing m with
  | nil => exact h
  | cons i is ih =>
    exact ih (Mem.wf_write h (hi i (by simp)) v) (fun j hj => hi j (by simp [hj]))

@[simp] theorem Mem.wf_unspecified (cap d : Nat) : (Mem.unspecified d : Mem w).wf cap = true := rfl

/-- The memories right after reset are in canonical form. -/
theorem State.resetWith_mem_wf (c : Config) :
    (State.resetWith c).smp.wf (State.resetWith c).cap = true ∧ (State.resetWith c).re.wf (State.resetWith c).cap = true ∧
      (State.resetWith c).im.wf (State.resetWith c).cap = true := ⟨rfl, rfl, rfl⟩

/-! The reads of a state after the memory updates. -/

theorem State.readRe_setRe (s : State) (m : Mem 64) (i : Nat) : (s.setRe m).readRe i = m.read Config.freeRe i := rfl
theorem State.readIm_setIm (s : State) (m : Mem 64) (i : Nat) : (s.setIm m).readIm i = m.read Config.freeIm i := rfl
theorem State.readSmp_setSmp (s : State) (m : Mem 32) (i : Nat) : (s.setSmp m).readSmp i = m.read Config.freeSmp i := rfl

theorem State.readRe_storeBins (s : State) (x : List Bin) (i : Nat) :
    (s.storeBins x).readRe i = ((x[i]?).map Bin.re).getD (s.readRe i) := by
  change (s.re.writeList 0 (x.map Bin.re)).read Config.freeRe i = _
  rw [Mem.read_writeList]
  simp [State.readRe]

theorem State.readIm_storeBins (s : State) (x : List Bin) (i : Nat) :
    (s.storeBins x).readIm i = ((x[i]?).map Bin.im).getD (s.readIm i) := by
  change (s.im.writeList 0 (x.map Bin.im)).read Config.freeIm i = _
  rw [Mem.read_writeList]
  simp [State.readIm]

end Sys2Proof.Machine
end

