-- ==== Sys2Proof/Laws/Commands.lean ====
section
/-!
SUPPORT. What each shared check and each command can do, said once: the fault it raises and when, or the state its writes give.
-/

namespace Sys2Proof.Machine

variable (s : State)

theorem withinCap_cases (n : Reg32) (run : State → Except CmdFault State) :
    (s.cap < n.toNat ∧ withinCap n s run = .error (.capacity n)) ∨ (n.toNat ≤ s.cap ∧ withinCap n s run = run s) := by
  unfold withinCap
  split
  · next h => exact .inl ⟨h, rfl⟩
  · next h => exact .inr ⟨by omega, rfl⟩

theorem withinCap_of_le {n : Reg32} (h : n.toNat ≤ s.cap) (run : State → Except CmdFault State) :
    withinCap n s run = run s := by
  simp [withinCap, Nat.not_lt.mpr h]

theorem powerOfTwoLen_cases (run : State → Except CmdFault State) :
    (s.len.toNat ≠ 0 ∧ ispow2 s.len.toNat = false ∧ powerOfTwoLen s run = .error (.lenNotPow2 s.len)) ∨
      ((s.len.toNat = 0 ∨ ispow2 s.len.toNat = true) ∧ powerOfTwoLen s run = run s) := by
  unfold powerOfTwoLen
  split
  · next h => exact .inl ⟨h.1, h.2, rfl⟩
  · next h =>
    refine .inr ⟨?_, rfl⟩
    by_cases h0 : s.len.toNat = 0
    · exact .inl h0
    · exact .inr (by cases hp : ispow2 s.len.toNat <;> simp_all)

theorem widthLegal_cases (run : State → Except CmdFault State) :
    (legalWidth s.bits = false ∧ widthLegal s run = .error (.badBits s.bits)) ∨
      (legalWidth s.bits = true ∧ widthLegal s run = run s) := by
  unfold widthLegal
  cases h : legalWidth s.bits
  · exact .inl ⟨rfl, by simp⟩
  · exact .inr ⟨rfl, by simp⟩

/-- A completion always answers a next state: the fault taken in the state the command began in, or the end state. -/
theorem complete_cases (r : Except CmdFault State) :
    (∃ f, r = .error f ∧ complete r s = .next (raise f s)) ∨ (∃ t, r = .ok t ∧ complete r s = .next (finish t)) := by
  cases r with
  | error f => exact .inl ⟨f, rfl, rfl⟩
  | ok t => exact .inr ⟨t, rfl, rfl⟩

theorem legalWidth_iff (b : Reg32) : legalWidth b = true ↔ b = 8#32 ∨ b = 16#32 ∨ b = 32#32 := by
  simp [legalWidth, or_assoc]

theorem tofltCode_cases :
    (s.cap < s.slen.toNat ∧ tofltCode s = .error (.capacity s.slen)) ∨
      (s.slen.toNat ≤ s.cap ∧ tofltCode s = .ok (convertSamples s)) :=
  withinCap_cases s _ _

theorem clrimCode_cases :
    (s.cap < s.len.toNat ∧ clrimCode s = .error (.capacity s.len)) ∨
      (s.len.toNat ≤ s.cap ∧ clrimCode s = .ok (clearImaginary s)) :=
  withinCap_cases s _ _

theorem zpadCode_cases :
    (s.cap < s.len.toNat ∧ zpadCode s = .error (.capacity s.len)) ∨
      (s.len.toNat ≤ s.cap ∧ zpadCode s = .ok (padZeros s)) :=
  withinCap_cases s _ _

theorem fftrzpCode_cases :
    (s.cap < s.len.toNat ∧ fftrzpCode s = .error (.capacity s.len)) ∨
      (s.len.toNat ≤ s.cap ∧ fftrzpCode s = .ok (padAndTransform s)) :=
  withinCap_cases s _ _

theorem fftCode_cases :
    (s.cap < s.len.toNat ∧ fftCode s = .error (.capacity s.len)) ∨
      (s.len.toNat ≤ s.cap ∧ s.len.toNat ≠ 0 ∧ ispow2 s.len.toNat = false ∧ fftCode s = .error (.lenNotPow2 s.len)) ∨
      (s.len.toNat ≤ s.cap ∧ (s.len.toNat = 0 ∨ ispow2 s.len.toNat = true) ∧ fftCode s = .ok (forwardTransform s)) := by
  rcases withinCap_cases s s.len (fun s => powerOfTwoLen s fun s => .ok (forwardTransform s)) with h | ⟨hc, h⟩
  · exact .inl h
  · rcases powerOfTwoLen_cases s (fun s => .ok (forwardTransform s)) with ⟨h0, hp, h'⟩ | ⟨hp, h'⟩
    · exact .inr (.inl ⟨hc, h0, hp, h.trans h'⟩)
    · exact .inr (.inr ⟨hc, hp, h.trans h'⟩)

theorem ifftCode_cases :
    (s.cap < s.len.toNat ∧ ifftCode s = .error (.capacity s.len)) ∨
      (s.len.toNat ≤ s.cap ∧ s.len.toNat ≠ 0 ∧ ispow2 s.len.toNat = false ∧ ifftCode s = .error (.lenNotPow2 s.len)) ∨
      (s.len.toNat ≤ s.cap ∧ (s.len.toNat = 0 ∨ ispow2 s.len.toNat = true) ∧ ifftCode s = .ok (inverseTransform s)) := by
  rcases withinCap_cases s s.len (fun s => powerOfTwoLen s fun s => .ok (inverseTransform s)) with h | ⟨hc, h⟩
  · exact .inl h
  · rcases powerOfTwoLen_cases s (fun s => .ok (inverseTransform s)) with ⟨h0, hp, h'⟩ | ⟨hp, h'⟩
    · exact .inr (.inl ⟨hc, h0, hp, h.trans h'⟩)
    · exact .inr (.inr ⟨hc, hp, h.trans h'⟩)

theorem magmaxCode_cases :
    (s.cap < s.len.toNat ∧ magmaxCode s = .error (.capacity s.len)) ∨
      (s.len.toNat ≤ s.cap ∧ magmaxCode s = .ok (s.setMaxmag (maxMag s.config (s.bins s.len.toNat)))) :=
  withinCap_cases s _ _

theorem gateCode_cases :
    (s.cap < s.len.toNat ∧ gateCode s = .error (.capacity s.len)) ∨
      (s.len.toNat ≤ s.cap ∧ gateCode s = .ok (gateBins s)) :=
  withinCap_cases s _ _

theorem truncCode_cases :
    (s.cap < s.len.toNat ∧ truncCode s = .error (.capacity s.len)) ∨
      (s.len.toNat ≤ s.cap ∧ s.len.toNat < s.olen.toNat ∧ truncCode s = .error (.truncRange s.olen)) ∨
      (s.len.toNat ≤ s.cap ∧ s.olen.toNat ≤ s.len.toNat ∧ truncCode s = .ok (s.setLen s.olen)) := by
  rcases withinCap_cases s s.len
      (fun s => if s.olen.toNat > s.len.toNat then .error (.truncRange s.olen) else .ok (s.setLen s.olen)) with h | ⟨hc, h⟩
  · exact .inl h
  · by_cases ho : s.olen.toNat > s.len.toNat
    · exact .inr (.inl ⟨hc, ho, h.trans (if_pos ho)⟩)
    · exact .inr (.inr ⟨hc, by omega, h.trans (if_neg ho)⟩)

/-- `firstNonFinite` finds nothing exactly when every value is finite. -/
theorem firstNonFinite_eq_none (x : List Binary64) (i : Nat) :
    firstNonFinite i x = none ↔ ∀ a ∈ x, isFinite a = true := by
  induction x generalizing i with
  | nil => simp [firstNonFinite]
  | cons a rest ih =>
    cases h : isFinite a
    · simp [firstNonFinite, h]
    · simp [firstNonFinite, h, ih]

theorem quantCode_cases :
    (s.cap < s.len.toNat ∧ quantCode s = .error (.capacity s.len)) ∨
      (s.len.toNat ≤ s.cap ∧ legalWidth s.bits = false ∧ quantCode s = .error (.badBits s.bits)) ∨
      (s.len.toNat ≤ s.cap ∧ legalWidth s.bits = true ∧
        ∃ i, firstNonFinite 0 (s.reals s.len.toNat) = some i ∧ quantCode s = .error (.nonFinite i)) ∨
      (s.len.toNat ≤ s.cap ∧ legalWidth s.bits = true ∧ firstNonFinite 0 (s.reals s.len.toNat) = none ∧
        quantCode s = .ok (requantize s)) := by
  rcases withinCap_cases s s.len (fun s => widthLegal s finiteThenRequantize) with h | ⟨hc, h⟩
  · exact .inl h
  · rcases widthLegal_cases s finiteThenRequantize with ⟨hw, h'⟩ | ⟨hw, h'⟩
    · exact .inr (.inl ⟨hc, hw, h.trans h'⟩)
    · refine .inr (.inr ?_)
      have e : quantCode s = finiteThenRequantize s := h.trans h'
      cases hf : firstNonFinite 0 (s.reals s.len.toNat) with
      | some i => exact .inl ⟨hc, hw, i, rfl, by rw [e, finiteThenRequantize, hf]⟩
      | none => exact .inr ⟨hc, hw, rfl, by rw [e, finiteThenRequantize, hf]⟩

theorem denoiseChecks_cases :
    (s.cap < s.slen.toNat ∧ denoiseChecks s = .error (.capacity s.slen)) ∨
      (s.slen.toNat ≤ s.cap ∧ legalWidth s.bits = false ∧ denoiseChecks s = .error (.badBits s.bits)) ∨
      (s.slen.toNat ≤ s.cap ∧ legalWidth s.bits = true ∧ denoiseChecks s = .ok s) := by
  rcases withinCap_cases s s.slen (fun s => widthLegal s fun s => .ok s) with h | ⟨hc, h⟩
  · exact .inl h
  · rcases widthLegal_cases s (fun s => .ok s) with ⟨hw, h'⟩ | ⟨hw, h'⟩
    · exact .inr (.inl ⟨hc, hw, h.trans h'⟩)
    · exact .inr (.inr ⟨hc, hw, h.trans h'⟩)

/-- What `DENOISE` answers: a fault of the two checks taken in the state it began in, a fault of the pass taken with the
scratch state unspecified, or the end of the pass. -/
theorem execDenoise_cases :
    (∃ f, denoiseChecks s = .error f ∧ execDenoise s = .next (raise f s)) ∨
      (denoiseChecks s = .ok s ∧ ∃ f, denoisePass s = .error f ∧ execDenoise s = .next (raise f (unspecifyScratch s))) ∨
      (denoiseChecks s = .ok s ∧ ∃ t, denoisePass s = .ok t ∧ execDenoise s = .next (finish t)) := by
  rcases denoiseChecks_cases s with ⟨_, h⟩ | ⟨_, _, h⟩ | ⟨_, _, h⟩
  · exact .inl ⟨_, h, by rw [execDenoise, h]⟩
  · exact .inl ⟨_, h, by rw [execDenoise, h]⟩
  · cases hp : denoisePass s with
    | error f => exact .inr (.inl ⟨h, f, rfl, by rw [execDenoise, h]; simp [hp, completePass]⟩)
    | ok t => exact .inr (.inr ⟨h, t, rfl, by rw [execDenoise, h]; simp [hp, completePass]⟩)

/-! The sequences the commands work on. -/

@[simp] theorem State.bins_length (n : Nat) : (s.bins n).length = n := by simp [State.bins]
@[simp] theorem State.samples_length (n : Nat) : (s.samples n).length = n := by simp [State.samples]
@[simp] theorem State.reals_length (n : Nat) : (s.reals n).length = n := by simp [State.reals]

theorem State.bins_getElem? {n i : Nat} (h : i < n) : (s.bins n)[i]? = some (s.bin i) := by
  simp [State.bins, h]

theorem State.reals_getElem? {n i : Nat} (h : i < n) : (s.reals n)[i]? = some (s.readRe i) := by
  simp [State.reals, h]

theorem State.samples_getElem? {n i : Nat} (h : i < n) : (s.samples n)[i]? = some (s.readSmp i) := by
  simp [State.samples, h]

theorem mem_padRange {n i : Nat} : i ∈ padRange n ↔ n ≤ i ∧ i < npow2 n := by
  simp only [padRange, List.mem_range'_1]
  omega

end Sys2Proof.Machine
end

