-- ==== Sys2Proof/Laws/Float.lean ====
section
/-!
SUPPORT. The fields of binary64 patterns: what `signed` and `quietNaN` build, the bounds of the fields, and that the fields
determine the pattern.
-/

namespace Sys2Proof.Machine

theorem expField_eq (b : Binary64) : expField b = b.toNat / 2 ^ 52 % 2 ^ 11 := by
  simp [expField, Nat.shiftRight_eq_div_pow]

theorem fracField_eq (b : Binary64) : fracField b = b.toNat % 2 ^ 52 := by
  simp [fracField]

theorem isNeg_eq (b : Binary64) : isNeg b = decide (2 ^ 63 ≤ b.toNat) := by
  have hb := b.isLt
  rw [isNeg, ← BitVec.testBit_toNat, Nat.testBit_eq_decide_div_mod_eq]
  congr 1
  exact propext (by omega)

theorem expField_lt (b : Binary64) : expField b < 2048 := by
  rw [expField_eq]; omega

theorem fracField_lt (b : Binary64) : fracField b < 2 ^ 52 := by
  rw [fracField_eq]; omega

/-- The three fields of 40 R65 determine the pattern. -/
theorem toNat_eq_fields (b : Binary64) :
    b.toNat = (if isNeg b then 2 ^ 63 else 0) + expField b * 2 ^ 52 + fracField b := by
  have hb := b.isLt
  rw [expField_eq, fracField_eq, isNeg_eq]
  split <;> rename_i h <;> simp only [decide_eq_true_eq] at h <;> omega

theorem signed_toNat (neg : Bool) {mag : Nat} (h : mag < 2 ^ 63) :
    (signed neg mag).toNat = mag + if neg then 2 ^ 63 else 0 := by
  rw [signed, BitVec.toNat_ofNat]
  apply Nat.mod_eq_of_lt
  split <;> omega

theorem isNeg_signed (neg : Bool) {mag : Nat} (h : mag < 2 ^ 63) : isNeg (signed neg mag) = neg := by
  rw [isNeg_eq, signed_toNat neg h]
  cases neg <;> simp
  all_goals omega

theorem expField_signed (neg : Bool) {mag : Nat} (h : mag < 2 ^ 63) : expField (signed neg mag) = mag / 2 ^ 52 := by
  rw [expField_eq, signed_toNat neg h]
  cases neg <;> simp
  all_goals omega

theorem fracField_signed (neg : Bool) {mag : Nat} (h : mag < 2 ^ 63) : fracField (signed neg mag) = mag % 2 ^ 52 := by
  rw [fracField_eq, signed_toNat neg h]
  cases neg <;> simp
  all_goals omega

theorem rnMag_le (n d : Nat) : rnMag n d ≤ 2047 * 2 ^ 52 := Nat.min_le_right _ _

theorem rnMag_lt (n d : Nat) : rnMag n d < 2 ^ 63 := lt_of_le_of_lt (rnMag_le n d) (by norm_num)

/-- A rounded result is never NaN. -/
theorem isNaN_rn (neg : Bool) (n d : Nat) : isNaN (rn neg n d) = false := by
  have h := rnMag_le n d
  rw [isNaN, rn, expField_signed neg (rnMag_lt n d), fracField_signed neg (rnMag_lt n d)]
  simp only [Bool.and_eq_false_iff, decide_eq_false_iff_not]
  omega

/-- A rounded result has the sign it was given, a zero included (40 R67). -/
theorem isNeg_rn (neg : Bool) (n d : Nat) : isNeg (rn neg n d) = neg := isNeg_signed neg (rnMag_lt n d)

theorem quietNaN_toNat (bits : BitVec 52) :
    (quietNaN bits).toNat = 2047 * 2 ^ 52 + 2 ^ 51 + bits.toNat % 2 ^ 51 + bits.toNat / 2 ^ 51 * 2 ^ 63 := by
  have hb := bits.isLt
  rw [quietNaN, BitVec.toNat_ofNat]
  apply Nat.mod_eq_of_lt
  omega

theorem expField_quietNaN (bits : BitVec 52) : expField (quietNaN bits) = 2047 := by
  have hb := bits.isLt
  rw [expField_eq, quietNaN_toNat]
  omega

theorem fracField_quietNaN (bits : BitVec 52) : fracField (quietNaN bits) = 2 ^ 51 + bits.toNat % 2 ^ 51 := by
  have hb := bits.isLt
  rw [fracField_eq, quietNaN_toNat]
  omega

@[simp] theorem isNaN_quietNaN (bits : BitVec 52) : isNaN (quietNaN bits) = true := by
  rw [isNaN, expField_quietNaN, fracField_quietNaN]
  simp

/-- Whatever is drawn, the result of an invalid operation is a quiet NaN (40 R75). -/
theorem nanResult_quiet (c : Config) (op : NanOp) (a b : Binary64) :
    ∃ bits, nanResult c op a b = quietNaN bits := by
  unfold nanResult
  split
  · exact ⟨_, rfl⟩
  · exact ⟨_, rfl⟩

@[simp] theorem isNaN_nanResult (c : Config) (op : NanOp) (a b : Binary64) : isNaN (nanResult c op a b) = true := by
  obtain ⟨bits, h⟩ := nanResult_quiet c op a b
  rw [h, isNaN_quietNaN]

/-! `fneg` inverts the sign and keeps the other fields (40 R73). -/

@[simp] theorem isNeg_fneg (a : Binary64) : isNeg (fneg a) = !isNeg a := by
  simp [isNeg, fneg, NZERO]

@[simp] theorem expField_fneg (a : Binary64) : expField (fneg a) = expField a := by
  rw [expField, expField, fneg, BitVec.extractLsb'_xor, show NZERO.extractLsb' 52 11 = 0#11 by decide, BitVec.xor_zero]

@[simp] theorem fracField_fneg (a : Binary64) : fracField (fneg a) = fracField a := by
  rw [fracField, fracField, fneg, BitVec.extractLsb'_xor, show NZERO.extractLsb' 0 52 = 0#52 by decide, BitVec.xor_zero]

@[simp] theorem units_fneg (a : Binary64) : units (fneg a) = units a := by simp [units]
@[simp] theorem isNaN_fneg (a : Binary64) : isNaN (fneg a) = isNaN a := by simp [isNaN]
@[simp] theorem isInf_fneg (a : Binary64) : isInf (fneg a) = isInf a := by simp [isInf]
@[simp] theorem isZero_fneg (a : Binary64) : isZero (fneg a) = isZero a := by simp [isZero]
@[simp] theorem isFinite_fneg (a : Binary64) : isFinite (fneg a) = isFinite a := by simp [isFinite]
@[simp] theorem value_fneg (a : Binary64) : value (fneg a) = -value a := by
  cases h : isNeg a <;> simp [value, h]

/-! The classes of 40 R66 exclude one another, and what they say of the value. -/

theorem isNaN_of_isFinite {a : Binary64} (h : isFinite a = true) : isNaN a = false := by simp_all [isFinite, isNaN]
theorem isInf_of_isFinite {a : Binary64} (h : isFinite a = true) : isInf a = false := by simp_all [isFinite, isInf]
theorem isNaN_of_isInf {a : Binary64} (h : isInf a = true) : isNaN a = false := by simp_all [isNaN, isInf]
theorem isZero_of_isInf {a : Binary64} (h : isInf a = true) : isZero a = false := by simp_all [isZero, isInf]
theorem isFinite_of_isZero {a : Binary64} (h : isZero a = true) : isFinite a = true := by simp_all [isZero, isFinite]

theorem units_eq_zero_iff (a : Binary64) : units a = 0 ↔ isZero a = true := by
  unfold units isZero
  split <;> next h => simp [h]

theorem natAbs_value (a : Binary64) : (value a).natAbs = units a := by
  unfold value
  split <;> simp

theorem value_eq_zero_iff (a : Binary64) : value a = 0 ↔ isZero a = true := by
  rw [← Int.natAbs_eq_zero, natAbs_value, units_eq_zero_iff]

theorem value_neg_iff (a : Binary64) : value a < 0 ↔ isNeg a = true ∧ isZero a = false := by
  have := units_eq_zero_iff a
  unfold value
  cases h : isZero a <;> cases hn : isNeg a <;> simp_all
  omega

end Sys2Proof.Machine
end

