-- ==== Sys2Proof/Laws/Fourier.lean ====
section
/-!
SUPPORT. The lengths of the sequences the transform splits and joins.
-/

namespace Sys2Proof.Machine

variable (c : Config)

theorem evens_length {α : Type} : (x : List α) → (evens x).length = (x.length + 1) / 2
  | [] => by simp [evens]
  | [_] => by simp [evens]
  | _ :: _ :: rest => by simp only [evens, List.length_cons, evens_length rest]; omega

theorem odds_length {α : Type} : (x : List α) → (odds x).length = x.length / 2
  | [] => by simp [odds]
  | [_] => by simp [odds]
  | _ :: _ :: rest => by simp only [odds, List.length_cons, odds_length rest]; omega

theorem evens_getElem? {α : Type} : (x : List α) → (i : Nat) → (evens x)[i]? = x[2 * i]?
  | [], i => by simp [evens]
  | [a], 0 => by simp [evens]
  | [a], i + 1 => by simp [evens, Nat.mul_add]
  | a :: b :: rest, 0 => by simp [evens]
  | a :: b :: rest, i + 1 => by simp [evens, Nat.mul_add, evens_getElem? rest i]

theorem odds_getElem? {α : Type} : (x : List α) → (i : Nat) → (odds x)[i]? = x[2 * i + 1]?
  | [], i => by simp [odds]
  | [a], i => by simp [odds]
  | a :: b :: rest, 0 => by simp [odds]
  | a :: b :: rest, i + 1 => by
    have e : 2 * (i + 1) + 1 = 2 * i + 1 + 1 + 1 := by omega
    simp [odds, e, odds_getElem? rest i]

@[simp] theorem rotateFrom_length (n : Nat) (os : List Bin) (k : Nat) : (rotateFrom c n k os).length = os.length := by
  induction os generalizing k with
  | nil => rfl
  | cons o os ih => simp [rotateFrom, ih]

theorem rotateFrom_getElem? (n : Nat) (os : List Bin) (k i : Nat) :
    (rotateFrom c n k os)[i]? = (os[i]?).map (rotate c (twiddle c (k + i) n)) := by
  induction os generalizing k i with
  | nil => simp [rotateFrom]
  | cons o os ih =>
    cases i with
    | zero => simp [rotateFrom]
    | succ i => simp [rotateFrom, ih, Nat.add_assoc, Nat.add_comm 1 i]

theorem combine_length (n : Nat) (e o : List Bin) : (combine c n e o).length = 2 * min e.length o.length := by
  simp [combine]
  omega

/-- A transform has the length of its input, if that is a power of two within the depth's reach. -/
theorem fftDepth_length (d : Nat) (x : List Bin) (h : x.length = 2 ^ d) : (fftDepth c d x).length = x.length := by
  induction d generalizing x with
  | zero => rfl
  | succ d ih =>
    rw [fftDepth]
    split
    · rfl
    · rw [combine_length, ih (evens x) (by rw [evens_length, h, Nat.pow_succ]; omega),
        ih (odds x) (by rw [odds_length, h, Nat.pow_succ]; omega), evens_length, odds_length, h, Nat.pow_succ]
      omega

end Sys2Proof.Machine
end

