-- ==== Sys2Proof/Laws/PerInstr.lean ====
section
/-!
SUPPORT. What holds of every command as syntax, one lemma per constructor: it is well formed, its word has `RSV = 0`
(30_encoding.md R55), and its opcode's place in the opcode map of 30 R56 is its own.
-/

namespace Sys2Proof.Laws.WordShape

/-- The command is well formed, and its word is `OPC` with `RSV = 0`, `OPC` being the opcode the map gives it. -/
def Statement (i : Instr) : Prop :=
  i.wf = true ∧ rsvField (encode i) = 0#24 ∧ lookupOpcode opcodeMap (opcField (encode i)) = some i

theorem nop : Statement .nop := by unfold Statement; decide
theorem srst : Statement .srst := by unfold Statement; decide
theorem toflt : Statement .toflt := by unfold Statement; decide
theorem clrim : Statement .clrim := by unfold Statement; decide
theorem zpad : Statement .zpad := by unfold Statement; decide
theorem fftrzp : Statement .fftrzp := by unfold Statement; decide
theorem fft : Statement .fft := by unfold Statement; decide
theorem ifft : Statement .ifft := by unfold Statement; decide
theorem magmax : Statement .magmax := by unfold Statement; decide
theorem thrset : Statement .thrset := by unfold Statement; decide
theorem gate : Statement .gate := by unfold Statement; decide
theorem trunc : Statement .trunc := by unfold Statement; decide
theorem quant : Statement .quant := by unfold Statement; decide
theorem denoise : Statement .denoise := by unfold Statement; decide

end Sys2Proof.Laws.WordShape
end

