-- ==== Sys2Proof/Laws/Step.lean ====
section
/-!
SUPPORT. Everything a step can do, said once.
-/

namespace Sys2Proof.Machine

/-- What a host access can answer (20 R43 to R45). -/
theorem hostAccess_cases (a : Access) (s : State) :
    (a.wf s.cap = false ∧ hostAccess a s = .fault (.noSuchElement a.space a.index)) ∨
      (a.wf s.cap = true ∧ s.busy = true ∧ isStatusRead a = false ∧ hostAccess a s = .refused (busyRefusal a)) ∨
      (permitted a s = true ∧ hostAccess a s = .next (performAccess a s)) := by
  cases hw : a.wf s.cap
  · exact .inl ⟨rfl, by simp [hostAccess, hw]⟩
  · cases hb : s.busy
    · exact .inr (.inr ⟨by simp [permitted, hw, hb], by simp [hostAccess, hw, hb]⟩)
    · cases hs : isStatusRead a
      · exact .inr (.inl ⟨rfl, rfl, rfl, by simp [hostAccess, hw, hb, hs]⟩)
      · exact .inr (.inr ⟨by simp [permitted, hw, hs], by simp [hostAccess, hw, hs]⟩)

/-- What the completion event can answer (30 R58). -/
theorem completeCommand_cases (s : State) :
    (∃ i, decode s.cmd = .ok i ∧ completeCommand s = exec i s) ∨
      (∃ e, decode s.cmd = .error e ∧ completeCommand s = .next (raise (.illegalCommand s.cmd) s)) := by
  cases h : decode s.cmd with
  | ok i => exact .inl ⟨i, rfl, by rw [completeCommand, h]⟩
  | error e => exact .inr ⟨e, rfl, by rw [completeCommand, h]⟩

theorem engineTurn_of_busy {s : State} (h : s.busy = true) : engineTurn s = completeCommand s := by simp [engineTurn, h]

theorem engineTurn_of_idle {s : State} (h : s.busy = false) : engineTurn s = .next s := by simp [engineTurn, h]

/-- A step is the oldest pending event, on the state without it; with none pending, the engine's turn. -/
theorem step_cases (s : State) :
    (s.pending = [] ∧ step s = engineTurn s) ∨
      (∃ rest, s.pending = .engine :: rest ∧ step s = engineTurn (s.setPending rest)) ∨
      (∃ a rest, s.pending = .access a :: rest ∧ step s = hostAccess a (s.setPending rest)) ∨
      (∃ rest, s.pending = .reset :: rest ∧ step s = .next (hardwareReset (s.setPending rest))) := by
  cases h : s.pending with
  | nil => exact .inl ⟨rfl, by simp [step, h]⟩
  | cons e rest =>
    cases e with
    | engine => exact .inr (.inl ⟨rest, rfl, by simp [step, h, takeEvent]⟩)
    | access a => exact .inr (.inr (.inl ⟨a, rest, rfl, by simp [step, h, takeEvent]⟩))
    | reset => exact .inr (.inr (.inr ⟨rest, rfl, by simp [step, h, takeEvent]⟩))

end Sys2Proof.Machine
end

