-- ==== Sys2Proof/Laws/Updates.lean ====
section
/-!
SUPPORT. What the writes of each command leave alone, one lemma per field, and equality of states field by field.
-/

namespace Sys2Proof.Machine

/-- Two states are equal when their fields are. -/
theorem State.eq_of_fields {s t : State} (config : t.config = s.config) (cmd : t.cmd = s.cmd) (status : t.status = s.status)
    (slen : t.slen = s.slen) (len : t.len = s.len) (olen : t.olen = s.olen) (bits : t.bits = s.bits) (thrf : t.thrf = s.thrf)
    (maxmag : t.maxmag = s.maxmag) (thr : t.thr = s.thr) (smp : t.smp = s.smp) (re : t.re = s.re) (im : t.im = s.im)
    (draws : t.draws = s.draws) (pending : t.pending = s.pending) (replies : t.replies = s.replies) : t = s := by
  cases s; cases t; simp_all

variable (s : State)

/-! `convertSamples` (41 R86). -/

@[simp] theorem convertSamples_config : (convertSamples s).config = s.config := by simp [convertSamples]
@[simp] theorem convertSamples_cmd : (convertSamples s).cmd = s.cmd := by simp [convertSamples]
@[simp] theorem convertSamples_status : (convertSamples s).status = s.status := by simp [convertSamples]
@[simp] theorem convertSamples_slen : (convertSamples s).slen = s.slen := by simp [convertSamples]
@[simp] theorem convertSamples_bits : (convertSamples s).bits = s.bits := by simp [convertSamples]
@[simp] theorem convertSamples_thrf : (convertSamples s).thrf = s.thrf := by simp [convertSamples]
@[simp] theorem convertSamples_maxmag : (convertSamples s).maxmag = s.maxmag := by simp [convertSamples]
@[simp] theorem convertSamples_thr : (convertSamples s).thr = s.thr := by simp [convertSamples]
@[simp] theorem convertSamples_smp : (convertSamples s).smp = s.smp := by simp [convertSamples]
@[simp] theorem convertSamples_im : (convertSamples s).im = s.im := by simp [convertSamples]
@[simp] theorem convertSamples_draws : (convertSamples s).draws = s.draws := by simp [convertSamples]
@[simp] theorem convertSamples_pending : (convertSamples s).pending = s.pending := by simp [convertSamples]
@[simp] theorem convertSamples_replies : (convertSamples s).replies = s.replies := by simp [convertSamples]
@[simp] theorem convertSamples_cap : (convertSamples s).cap = s.cap := by simp [State.cap]
@[simp] theorem convertSamples_readSmp (i : Nat) : (convertSamples s).readSmp i = s.readSmp i := by simp [State.readSmp]
@[simp] theorem convertSamples_readIm (i : Nat) : (convertSamples s).readIm i = s.readIm i := by simp [State.readIm]

/-! `clearImaginary` (41 R87). -/

@[simp] theorem clearImaginary_config : (clearImaginary s).config = s.config := by simp [clearImaginary]
@[simp] theorem clearImaginary_cmd : (clearImaginary s).cmd = s.cmd := by simp [clearImaginary]
@[simp] theorem clearImaginary_status : (clearImaginary s).status = s.status := by simp [clearImaginary]
@[simp] theorem clearImaginary_slen : (clearImaginary s).slen = s.slen := by simp [clearImaginary]
@[simp] theorem clearImaginary_len : (clearImaginary s).len = s.len := by simp [clearImaginary]
@[simp] theorem clearImaginary_olen : (clearImaginary s).olen = s.olen := by simp [clearImaginary]
@[simp] theorem clearImaginary_bits : (clearImaginary s).bits = s.bits := by simp [clearImaginary]
@[simp] theorem clearImaginary_thrf : (clearImaginary s).thrf = s.thrf := by simp [clearImaginary]
@[simp] theorem clearImaginary_maxmag : (clearImaginary s).maxmag = s.maxmag := by simp [clearImaginary]
@[simp] theorem clearImaginary_thr : (clearImaginary s).thr = s.thr := by simp [clearImaginary]
@[simp] theorem clearImaginary_smp : (clearImaginary s).smp = s.smp := by simp [clearImaginary]
@[simp] theorem clearImaginary_re : (clearImaginary s).re = s.re := by simp [clearImaginary]
@[simp] theorem clearImaginary_draws : (clearImaginary s).draws = s.draws := by simp [clearImaginary]
@[simp] theorem clearImaginary_pending : (clearImaginary s).pending = s.pending := by simp [clearImaginary]
@[simp] theorem clearImaginary_replies : (clearImaginary s).replies = s.replies := by simp [clearImaginary]
@[simp] theorem clearImaginary_cap : (clearImaginary s).cap = s.cap := by simp [State.cap]
@[simp] theorem clearImaginary_readSmp (i : Nat) : (clearImaginary s).readSmp i = s.readSmp i := by simp [State.readSmp]
@[simp] theorem clearImaginary_readRe (i : Nat) : (clearImaginary s).readRe i = s.readRe i := by simp [State.readRe]

/-! `padLength` (41 R88). -/

@[simp] theorem padLength_config : (padLength s).config = s.config := by simp [padLength]
@[simp] theorem padLength_cmd : (padLength s).cmd = s.cmd := by simp [padLength]
@[simp] theorem padLength_status : (padLength s).status = s.status := by simp [padLength]
@[simp] theorem padLength_slen : (padLength s).slen = s.slen := by simp [padLength]
@[simp] theorem padLength_olen : (padLength s).olen = s.olen := by simp [padLength]
@[simp] theorem padLength_bits : (padLength s).bits = s.bits := by simp [padLength]
@[simp] theorem padLength_thrf : (padLength s).thrf = s.thrf := by simp [padLength]
@[simp] theorem padLength_maxmag : (padLength s).maxmag = s.maxmag := by simp [padLength]
@[simp] theorem padLength_thr : (padLength s).thr = s.thr := by simp [padLength]
@[simp] theorem padLength_smp : (padLength s).smp = s.smp := by simp [padLength]
@[simp] theorem padLength_re : (padLength s).re = s.re := by simp [padLength]
@[simp] theorem padLength_im : (padLength s).im = s.im := by simp [padLength]
@[simp] theorem padLength_draws : (padLength s).draws = s.draws := by simp [padLength]
@[simp] theorem padLength_pending : (padLength s).pending = s.pending := by simp [padLength]
@[simp] theorem padLength_replies : (padLength s).replies = s.replies := by simp [padLength]
@[simp] theorem padLength_cap : (padLength s).cap = s.cap := by simp [State.cap]
@[simp] theorem padLength_readSmp (i : Nat) : (padLength s).readSmp i = s.readSmp i := by simp [State.readSmp]
@[simp] theorem padLength_readRe (i : Nat) : (padLength s).readRe i = s.readRe i := by simp [State.readRe]
@[simp] theorem padLength_readIm (i : Nat) : (padLength s).readIm i = s.readIm i := by simp [State.readIm]

/-! `padZeros` (41 R88). -/

@[simp] theorem padZeros_config : (padZeros s).config = s.config := by simp [padZeros]
@[simp] theorem padZeros_cmd : (padZeros s).cmd = s.cmd := by simp [padZeros]
@[simp] theorem padZeros_status : (padZeros s).status = s.status := by simp [padZeros]
@[simp] theorem padZeros_slen : (padZeros s).slen = s.slen := by simp [padZeros]
@[simp] theorem padZeros_olen : (padZeros s).olen = s.olen := by simp [padZeros]
@[simp] theorem padZeros_bits : (padZeros s).bits = s.bits := by simp [padZeros]
@[simp] theorem padZeros_thrf : (padZeros s).thrf = s.thrf := by simp [padZeros]
@[simp] theorem padZeros_maxmag : (padZeros s).maxmag = s.maxmag := by simp [padZeros]
@[simp] theorem padZeros_thr : (padZeros s).thr = s.thr := by simp [padZeros]
@[simp] theorem padZeros_smp : (padZeros s).smp = s.smp := by simp [padZeros]
@[simp] theorem padZeros_draws : (padZeros s).draws = s.draws := by simp [padZeros]
@[simp] theorem padZeros_pending : (padZeros s).pending = s.pending := by simp [padZeros]
@[simp] theorem padZeros_replies : (padZeros s).replies = s.replies := by simp [padZeros]
@[simp] theorem padZeros_cap : (padZeros s).cap = s.cap := by simp [State.cap]
@[simp] theorem padZeros_readSmp (i : Nat) : (padZeros s).readSmp i = s.readSmp i := by simp [State.readSmp]

/-! `forwardTransform` (42 R101). -/

@[simp] theorem forwardTransform_config : (forwardTransform s).config = s.config := by simp [forwardTransform]
@[simp] theorem forwardTransform_cmd : (forwardTransform s).cmd = s.cmd := by simp [forwardTransform]
@[simp] theorem forwardTransform_status : (forwardTransform s).status = s.status := by simp [forwardTransform]
@[simp] theorem forwardTransform_slen : (forwardTransform s).slen = s.slen := by simp [forwardTransform]
@[simp] theorem forwardTransform_len : (forwardTransform s).len = s.len := by simp [forwardTransform]
@[simp] theorem forwardTransform_olen : (forwardTransform s).olen = s.olen := by simp [forwardTransform]
@[simp] theorem forwardTransform_bits : (forwardTransform s).bits = s.bits := by simp [forwardTransform]
@[simp] theorem forwardTransform_thrf : (forwardTransform s).thrf = s.thrf := by simp [forwardTransform]
@[simp] theorem forwardTransform_maxmag : (forwardTransform s).maxmag = s.maxmag := by simp [forwardTransform]
@[simp] theorem forwardTransform_thr : (forwardTransform s).thr = s.thr := by simp [forwardTransform]
@[simp] theorem forwardTransform_smp : (forwardTransform s).smp = s.smp := by simp [forwardTransform]
@[simp] theorem forwardTransform_draws : (forwardTransform s).draws = s.draws := by simp [forwardTransform]
@[simp] theorem forwardTransform_pending : (forwardTransform s).pending = s.pending := by simp [forwardTransform]
@[simp] theorem forwardTransform_replies : (forwardTransform s).replies = s.replies := by simp [forwardTransform]
@[simp] theorem forwardTransform_cap : (forwardTransform s).cap = s.cap := by simp [State.cap]
@[simp] theorem forwardTransform_readSmp (i : Nat) : (forwardTransform s).readSmp i = s.readSmp i := by simp [State.readSmp]

/-! `padAndTransform` (41 R89). -/

@[simp] theorem padAndTransform_config : (padAndTransform s).config = s.config := by simp [padAndTransform]
@[simp] theorem padAndTransform_cmd : (padAndTransform s).cmd = s.cmd := by simp [padAndTransform]
@[simp] theorem padAndTransform_status : (padAndTransform s).status = s.status := by simp [padAndTransform]
@[simp] theorem padAndTransform_slen : (padAndTransform s).slen = s.slen := by simp [padAndTransform]
@[simp] theorem padAndTransform_olen : (padAndTransform s).olen = s.olen := by simp [padAndTransform]
@[simp] theorem padAndTransform_bits : (padAndTransform s).bits = s.bits := by simp [padAndTransform]
@[simp] theorem padAndTransform_thrf : (padAndTransform s).thrf = s.thrf := by simp [padAndTransform]
@[simp] theorem padAndTransform_maxmag : (padAndTransform s).maxmag = s.maxmag := by simp [padAndTransform]
@[simp] theorem padAndTransform_thr : (padAndTransform s).thr = s.thr := by simp [padAndTransform]
@[simp] theorem padAndTransform_smp : (padAndTransform s).smp = s.smp := by simp [padAndTransform]
@[simp] theorem padAndTransform_draws : (padAndTransform s).draws = s.draws := by simp [padAndTransform]
@[simp] theorem padAndTransform_pending : (padAndTransform s).pending = s.pending := by simp [padAndTransform]
@[simp] theorem padAndTransform_replies : (padAndTransform s).replies = s.replies := by simp [padAndTransform]
@[simp] theorem padAndTransform_cap : (padAndTransform s).cap = s.cap := by simp [State.cap]
@[simp] theorem padAndTransform_readSmp (i : Nat) : (padAndTransform s).readSmp i = s.readSmp i := by simp [State.readSmp]

/-! `inverseTransform` (42 R103). -/

@[simp] theorem inverseTransform_config : (inverseTransform s).config = s.config := by simp [inverseTransform]
@[simp] theorem inverseTransform_cmd : (inverseTransform s).cmd = s.cmd := by simp [inverseTransform]
@[simp] theorem inverseTransform_status : (inverseTransform s).status = s.status := by simp [inverseTransform]
@[simp] theorem inverseTransform_slen : (inverseTransform s).slen = s.slen := by simp [inverseTransform]
@[simp] theorem inverseTransform_len : (inverseTransform s).len = s.len := by simp [inverseTransform]
@[simp] theorem inverseTransform_olen : (inverseTransform s).olen = s.olen := by simp [inverseTransform]
@[simp] theorem inverseTransform_bits : (inverseTransform s).bits = s.bits := by simp [inverseTransform]
@[simp] theorem inverseTransform_thrf : (inverseTransform s).thrf = s.thrf := by simp [inverseTransform]
@[simp] theorem inverseTransform_maxmag : (inverseTransform s).maxmag = s.maxmag := by simp [inverseTransform]
@[simp] theorem inverseTransform_thr : (inverseTransform s).thr = s.thr := by simp [inverseTransform]
@[simp] theorem inverseTransform_smp : (inverseTransform s).smp = s.smp := by simp [inverseTransform]
@[simp] theorem inverseTransform_draws : (inverseTransform s).draws = s.draws := by simp [inverseTransform]
@[simp] theorem inverseTransform_pending : (inverseTransform s).pending = s.pending := by simp [inverseTransform]
@[simp] theorem inverseTransform_replies : (inverseTransform s).replies = s.replies := by simp [inverseTransform]
@[simp] theorem inverseTransform_cap : (inverseTransform s).cap = s.cap := by simp [State.cap]
@[simp] theorem inverseTransform_readSmp (i : Nat) : (inverseTransform s).readSmp i = s.readSmp i := by simp [State.readSmp]

/-! `gateBins` (43 R113). -/

@[simp] theorem gateBins_config : (gateBins s).config = s.config := by simp [gateBins]
@[simp] theorem gateBins_cmd : (gateBins s).cmd = s.cmd := by simp [gateBins]
@[simp] theorem gateBins_status : (gateBins s).status = s.status := by simp [gateBins]
@[simp] theorem gateBins_slen : (gateBins s).slen = s.slen := by simp [gateBins]
@[simp] theorem gateBins_len : (gateBins s).len = s.len := by simp [gateBins]
@[simp] theorem gateBins_olen : (gateBins s).olen = s.olen := by simp [gateBins]
@[simp] theorem gateBins_bits : (gateBins s).bits = s.bits := by simp [gateBins]
@[simp] theorem gateBins_thrf : (gateBins s).thrf = s.thrf := by simp [gateBins]
@[simp] theorem gateBins_maxmag : (gateBins s).maxmag = s.maxmag := by simp [gateBins]
@[simp] theorem gateBins_thr : (gateBins s).thr = s.thr := by simp [gateBins]
@[simp] theorem gateBins_smp : (gateBins s).smp = s.smp := by simp [gateBins]
@[simp] theorem gateBins_draws : (gateBins s).draws = s.draws := by simp [gateBins]
@[simp] theorem gateBins_pending : (gateBins s).pending = s.pending := by simp [gateBins]
@[simp] theorem gateBins_replies : (gateBins s).replies = s.replies := by simp [gateBins]
@[simp] theorem gateBins_cap : (gateBins s).cap = s.cap := by simp [State.cap]
@[simp] theorem gateBins_readSmp (i : Nat) : (gateBins s).readSmp i = s.readSmp i := by simp [State.readSmp]

/-! `requantize` (44 R122). -/

@[simp] theorem requantize_config : (requantize s).config = s.config := by simp [requantize]
@[simp] theorem requantize_cmd : (requantize s).cmd = s.cmd := by simp [requantize]
@[simp] theorem requantize_status : (requantize s).status = s.status := by simp [requantize]
@[simp] theorem requantize_len : (requantize s).len = s.len := by simp [requantize]
@[simp] theorem requantize_olen : (requantize s).olen = s.olen := by simp [requantize]
@[simp] theorem requantize_bits : (requantize s).bits = s.bits := by simp [requantize]
@[simp] theorem requantize_thrf : (requantize s).thrf = s.thrf := by simp [requantize]
@[simp] theorem requantize_maxmag : (requantize s).maxmag = s.maxmag := by simp [requantize]
@[simp] theorem requantize_thr : (requantize s).thr = s.thr := by simp [requantize]
@[simp] theorem requantize_re : (requantize s).re = s.re := by simp [requantize]
@[simp] theorem requantize_im : (requantize s).im = s.im := by simp [requantize]
@[simp] theorem requantize_draws : (requantize s).draws = s.draws := by simp [requantize]
@[simp] theorem requantize_pending : (requantize s).pending = s.pending := by simp [requantize]
@[simp] theorem requantize_replies : (requantize s).replies = s.replies := by simp [requantize]
@[simp] theorem requantize_cap : (requantize s).cap = s.cap := by simp [State.cap]
@[simp] theorem requantize_readRe (i : Nat) : (requantize s).readRe i = s.readRe i := by simp [State.readRe]
@[simp] theorem requantize_readIm (i : Nat) : (requantize s).readIm i = s.readIm i := by simp [State.readIm]

end Sys2Proof.Machine
end

