-- ==== Sys2Proof/Tests/Slice0.lean ====
section
/-!
SUPPORT. Small tests of one step or one operation, their results taken from spec/95_test_vectors.md or worked out by hand from
the rules (each names its source), and for every statement with hypotheses a witness that meets them together.
-/

namespace Sys2Proof.Tests

/- One test after another: side by side, their kernel evaluations hold too many threads at once. -/
set_option Elab.async false

open Sys2Proof.Machine

/-! ### Small states -/

/-- The configuration of the test vectors (95, "Conventions"): `CAP = 16`, ties away, correct rounding; every NaN result is
`0x7FF8000000000000`, which 40 R75 allows. -/
def testConfig : Config := { caplog2 := 4, ties := .away, trig := .correctlyRounded, nan := .fixed 0#52 }

/-- The same block with `CAPLOG2 = 0`, so that 1 is the capacity. -/
def tinyConfig : Config := { testConfig with caplog2 := 0 }

def block : State := State.resetWith testConfig
def tiny : State := State.resetWith tinyConfig

def mem32 (vs : List Sample) : Mem 32 := (Mem.unspecified 0).writeList 0 vs
def mem64 (vs : List Binary64) : Mem 64 := (Mem.unspecified 0).writeList 0 vs

/-- `LEN`, `RE` and `IM` loaded. -/
def coeffs (len : Reg32) (re im : List Binary64) : State := { block with len := len, re := mem64 re, im := mem64 im }

/-- `SLEN`, `BITS`, `THRF` and `SMP` loaded. -/
def channel (slen bits : Reg32) (thrf : Binary64) (smp : List Sample) : State :=
  { block with slen := slen, bits := bits, thrf := thrf, smp := mem32 smp }

/-- A fault of code 2 is recorded and the block is idle. -/
def faulted : State := block.setStatus 0x0200#16

/-- The command is accepted, nothing else set. -/
def accepted (w : CmdWord) : State := acceptCommand w block

/-- The state a command leaves, if it answers one. -/
def after (i : Instr) (s : State) : Option State :=
  match exec i s with
  | .next t => some t
  | .fault _ => none
  | .refused _ => none

/-- The state a step leaves, if it answers one. -/
def stepped (s : State) : Option State :=
  match step s with
  | .next t => some t
  | .fault _ => none
  | .refused _ => none

/-- A command answers a next state with a decided property. -/
theorem answers {i : Instr} {s : State} {p : State → Bool} (h : (after i s).any p = true) :
    ∃ t, exec i s = .next t ∧ p t = true := by
  unfold after at h
  cases he : exec i s with
  | next t => exact ⟨t, rfl, by simpa [he] using h⟩
  | fault f => simp [he] at h
  | refused r => simp [he] at h

/-- A step answers a next state with a decided property. -/
theorem steps {s : State} {p : State → Bool} (h : (stepped s).any p = true) : ∃ t, step s = .next t ∧ p t = true := by
  unfold stepped at h
  cases he : step s with
  | next t => exact ⟨t, rfl, by simpa [he] using h⟩
  | fault f => simp [he] at h
  | refused r => simp [he] at h

def NEG1 : Binary64 := 0xBFF0000000000000#64
def TWO : Binary64 := 0x4000000000000000#64
def THREE : Binary64 := 0x4008000000000000#64
def FOUR : Binary64 := 0x4010000000000000#64
def FIVE : Binary64 := 0x4014000000000000#64
def NINE : Binary64 := 0x4022000000000000#64
def HALF : Binary64 := 0x3FE0000000000000#64
def PINF : Binary64 := 0x7FF0000000000000#64
def QNAN : Binary64 := 0x7FF8000000000000#64

/-! ### Well-formedness: an ill-formed access of each space is refused by the check (20 R40, R43) -/

theorem test_wf_registers : Access.wf 16 (.readReg 15) = true ∧ Access.wf 16 (.readReg 16) = false ∧
    Access.wf 16 (.writeReg 15 0#64) = true ∧ Access.wf 16 (.writeReg 16 0#64) = false := by decide

theorem test_wf_samples : Access.wf 16 (.readSmp 15) = true ∧ Access.wf 16 (.readSmp 16) = false ∧
    Access.wf 16 (.writeSmp 16 0#32) = false ∧ Access.wf 1 (.writeSmp 0 0#32) = true := by decide

theorem test_wf_coefficients : Access.wf 16 (.readRe 16) = false ∧ Access.wf 16 (.writeRe 16 0#64) = false ∧
    Access.wf 16 (.readIm 16) = false ∧ Access.wf 1 (.writeIm 1 0#64) = false ∧ Access.wf 1 (.writeIm 0 0#64) = true := by
  decide

/-- Every command is well formed (30 R59). -/
theorem test_wf_commands : (opcodeMap.map fun p => p.2.wf) = List.replicate 14 true := by decide

/-! ### Decoding: the column "word" of 30 R56 -/

theorem test_decode_system : decode 0x00000000#32 = .ok .nop ∧ decode 0x00000001#32 = .ok .srst := ⟨rfl, rfl⟩
theorem test_decode_convert : decode 0x00000010#32 = .ok .toflt ∧ decode 0x00000011#32 = .ok .clrim ∧
    decode 0x00000012#32 = .ok .zpad ∧ decode 0x00000013#32 = .ok .fftrzp := ⟨rfl, rfl, rfl, rfl⟩
theorem test_decode_transform : decode 0x00000020#32 = .ok .fft ∧ decode 0x00000021#32 = .ok .ifft := ⟨rfl, rfl⟩
theorem test_decode_gate : decode 0x00000030#32 = .ok .magmax ∧ decode 0x00000031#32 = .ok .thrset ∧
    decode 0x00000032#32 = .ok .gate := ⟨rfl, rfl, rfl⟩
theorem test_decode_requant : decode 0x00000040#32 = .ok .trunc ∧ decode 0x00000041#32 = .ok .quant := ⟨rfl, rfl⟩
theorem test_decode_composite : decode 0x00000050#32 = .ok .denoise := rfl

/-- One word of each family written bit by bit, `RSV` in the first three groups of eight, `OPC` in the last (30 R55). -/
theorem test_decode_bit_by_bit :
    decode 0b00000000_00000000_00000000_00000001#32 = .ok .srst ∧
      decode 0b00000000_00000000_00000000_00010010#32 = .ok .zpad ∧
      decode 0b00000000_00000000_00000000_00100001#32 = .ok .ifft ∧
      decode 0b00000000_00000000_00000000_00110001#32 = .ok .thrset ∧
      decode 0b00000000_00000000_00000000_01000001#32 = .ok .quant ∧
      decode 0b00000000_00000000_00000000_01010000#32 = .ok .denoise := ⟨rfl, rfl, rfl, rfl, rfl, rfl⟩

/-- 30 R60, R61: the edges of the reserved ranges, and `FFT`'s opcode with a reserved bit set. -/
theorem test_decode_illegal :
    decode 0x00000002#32 = .error (.reservedOpcode 0x02#8) ∧ decode 0x0000000F#32 = .error (.reservedOpcode 0x0F#8) ∧
      decode 0x00000014#32 = .error (.reservedOpcode 0x14#8) ∧ decode 0x00000022#32 = .error (.reservedOpcode 0x22#8) ∧
      decode 0x00000033#32 = .error (.reservedOpcode 0x33#8) ∧ decode 0x00000042#32 = .error (.reservedOpcode 0x42#8) ∧
      decode 0x00000051#32 = .error (.reservedOpcode 0x51#8) ∧ decode 0x000000FF#32 = .error (.reservedOpcode 0xFF#8) ∧
      decode 0x00000120#32 = .error (.reservedBits 0x00000120#32) ∧
      decode 0x80000000#32 = .error (.reservedBits 0x80000000#32) :=
  ⟨rfl, rfl, rfl, rfl, rfl, rfl, rfl, rfl, rfl, rfl⟩

theorem test_decode_table_words : decodeTableWord 32 0x20 = some .fft ∧ decodeTableWord 8 0x20 = some .fft ∧
    decodeTableWord 32 0x120 = none ∧ decodeTableWord 32 (2 ^ 32 + 0x20) = some .fft ∧
    decodeTableWord 64 (2 ^ 32 + 0x20) = none := by decide

/-! ### Numerics (95 V-N1 to V-N6, V-G6, V-Q1 to V-Q12) -/

theorem test_fadd_zeros_and_cancellation : fadd testConfig PZERO NZERO = PZERO ∧ fadd testConfig NZERO NZERO = NZERO ∧
    fadd testConfig ONE NEG1 = PZERO ∧ fadd testConfig PINF ONE = PINF ∧
    isNaN (fadd testConfig PINF 0xFFF0000000000000#64) = true := by decide +kernel

theorem test_fsub_zeros : fsub testConfig NZERO PZERO = NZERO ∧ fsub testConfig PZERO NZERO = PZERO ∧
    fsub testConfig FIVE FIVE = PZERO := by decide +kernel

theorem test_fmul_overflow_and_signs : fmul testConfig 0x6974E718D7D7625A#64 0x6974E718D7D7625A#64 = PINF ∧
    fmul testConfig NZERO ONE = NZERO ∧ isNaN (fmul testConfig NZERO PINF) = true := by decide +kernel

theorem test_fdiv_subnormal_ties : fdiv testConfig 0x0000000000000001#64 TWO = PZERO ∧
    fdiv testConfig 0x0000000000000003#64 TWO = 0x0000000000000002#64 ∧
    fdiv testConfig ONE FOUR = 0x3FD0000000000000#64 ∧ fdiv testConfig NZERO FOUR = NZERO := by decide +kernel

theorem test_fsqrt : fsqrt testConfig TWO = 0x3FF6A09E667F3BCD#64 ∧ fsqrt testConfig 0x4039000000000000#64 = FIVE ∧
    fsqrt testConfig NZERO = NZERO ∧ isNaN (fsqrt testConfig NEG1) = true := by decide +kernel

theorem test_fneg_nan : fneg 0x7FF8000000000001#64 = 0xFFF8000000000001#64 := by decide

theorem test_comparisons : flt PZERO PZERO = false ∧ flt NZERO PZERO = false ∧ flt QNAN ONE = false ∧ flt ONE QNAN = false ∧
    flt ONE PINF = true ∧ fgt FIVE PZERO = true ∧ fgt QNAN PZERO = false := by decide +kernel

theorem test_i2f : i2f 0 = PZERO ∧ i2f (-128) = 0xC060000000000000#64 ∧ i2f 300 = 0x4072C00000000000#64 ∧
    i2f 2147483647 = 0x41DFFFFFFFC00000#64 ∧ i2f (-2147483648) = 0xC1E0000000000000#64 := by decide +kernel

/-- V-N2, the row of `(1, 16)`. -/
theorem test_twiddle : angle testConfig 1 16 = 0x3FD921FB54442D18#64 ∧
    twiddle testConfig 1 16 = { re := 0x3FED906BCF328D46#64, im := 0xBFD87DE2A6AEA963#64 } := by decide +kernel

/-- V-N2: the cosine of the binary64 nearest to pi/2 is not zero. -/
theorem test_twiddle_quarter : twiddle testConfig 1 4 = { re := 0x3C91A62633145C07#64, im := NEG1 } := by decide +kernel

theorem test_powers_of_two : [0, 1, 2, 3, 1000, 1024, 2 ^ 30].map ispow2 = [false, true, true, false, false, true, true] ∧
    [0, 1, 2, 3, 4, 5, 9, 1000, 2 ^ 30].map npow2 = [0, 1, 2, 4, 4, 8, 16, 1024, 2 ^ 30] := by decide +kernel

theorem test_round_int : roundInt .away HALF = 1 ∧ roundInt .even HALF = 0 ∧ roundInt .away 0xC004000000000000#64 = -3 ∧
    roundInt .even 0xC004000000000000#64 = -2 ∧ roundInt .away 0x3FDFFFFFFFFFFFFF#64 = 0 := by decide +kernel

theorem test_requant_wraps : requant .away 8 0x405FE00000000000#64 = -128 ∧ requant .away 16 0x40E3880000000000#64 = -25536 ∧
    requant .away 32 0x41E0000000000000#64 = -2147483648 ∧ requant .away 8 0x7E37E43C8800759C#64 = 0 := by decide +kernel

theorem test_mag : mag testConfig { re := THREE, im := FOUR } = FIVE ∧
    mag testConfig { re := ONE, im := ONE } = 0x3FF6A09E667F3BCD#64 ∧
    isNaN (mag testConfig { re := PINF, im := QNAN }) = true ∧ mag testConfig { re := NZERO, im := PZERO } = PZERO := by
  decide +kernel

/-! ### Commands, at most two each -/

/-- V-S1. -/
theorem test_nop : after .nop block = some (block.setStatus 0x0002#16) := by decide

/-- V-S2. -/
theorem test_srst :
    (after .srst { coeffs 3#32 [0x401C000000000000#64] [] with status := 0x0201#16, cmd := 1#32, bits := 16#32, thrf := HALF }).map
        (fun t => (t.status, t.cmd, t.len, t.bits, t.thrf, t.readRe 0)) =
      some (0#16, 0#32, 0#32, 0#32, PZERO, 0x401C000000000000#64) := by decide

/-- V-C1. -/
theorem test_toflt :
    (after .toflt (channel 4#32 0#32 PZERO [1000#32, 0xFFFFFC18#32, 0x7FFFFFFF#32, 0x80000000#32])).map
        (fun t => ([0, 1, 2, 3].map t.readRe, t.len, t.olen, t.status)) =
      some ([0x408F400000000000#64, 0xC08F400000000000#64, 0x41DFFFFFFFC00000#64, 0xC1E0000000000000#64], 4#32, 4#32, 2#16) := by
  decide +kernel

/-- V-C3. -/
theorem test_toflt_capacity :
    after .toflt { block with slen := 17#32 } = some { block with slen := 17#32, status := 0x0300#16 } := by decide

/-- V-C5. -/
theorem test_clrim :
    (after .clrim (coeffs 4#32 [] [NINE, NZERO, QNAN, NINE, NINE])).map
        (fun t => (t.readIm 0, t.readIm 1, t.readIm 2, t.readIm 3, t.readIm 4)) = some (PZERO, PZERO, PZERO, PZERO, NINE) := by
  decide

/-- V-C6. -/
theorem test_zpad :
    (after .zpad (coeffs 3#32 [ONE, TWO, THREE, NINE] [ONE, ONE, ONE, NINE])).map
        (fun t => (t.len, t.readRe 2, t.readRe 3, t.readIm 2, t.readIm 3, t.olen)) =
      some (4#32, THREE, PZERO, ONE, PZERO, 0#32) := by decide

/-- V-T7. -/
theorem test_fftrzp :
    (after .fftrzp (coeffs 3#32 [0x4059000000000000#64, 0xC049000000000000#64, 0x4039000000000000#64] [NINE, NINE, NINE, NINE])).map
        (fun t => (t.len, [0, 1, 2, 3].map t.readRe, [0, 1, 2, 3].map t.readIm)) =
      some (4#32, [0x4052C00000000000#64, 0x4052C00000000000#64, 0x4065E00000000000#64, 0x4052C00000000000#64],
        [PZERO, 0x4049000000000000#64, PZERO, 0xC049000000000000#64]) := by decide +kernel

/-- V-C10. -/
theorem test_fftrzp_one :
    (after .fftrzp (coeffs 1#32 [FIVE] [NINE])).map (fun t => (t.len, t.readRe 0, t.readIm 0)) = some (1#32, FIVE, PZERO) := by
  decide +kernel

/-- V-T3. -/
theorem test_fft :
    (after .fft (coeffs 4#32 [ONE, TWO, THREE, FOUR] [PZERO, PZERO, PZERO, PZERO])).map
        (fun t => ([0, 1, 2, 3].map t.readRe, [0, 1, 2, 3].map t.readIm)) =
      some ([0x4024000000000000#64, 0xC000000000000000#64, 0xC000000000000000#64, 0xBFFFFFFFFFFFFFFF#64],
        [PZERO, TWO, PZERO, 0xC000000000000000#64]) := by decide +kernel

/-- V-T2c: signed zeros, and the rotation is not skipped for index 0. -/
theorem test_fft_signed_zeros :
    (after .fft (coeffs 2#32 [NZERO, NZERO] [NZERO, NZERO])).map (fun t => (t.bin 0, t.bin 1)) =
      some ({ re := NZERO, im := PZERO }, { re := PZERO, im := NZERO }) := by decide +kernel

/-- V-T4. -/
theorem test_ifft :
    (after .ifft (coeffs 4#32 [0x4024000000000000#64, 0xC000000000000000#64, 0xC000000000000000#64, 0xBFFFFFFFFFFFFFFF#64]
        [PZERO, TWO, PZERO, 0xC000000000000000#64])).map
        (fun t => ([0, 1, 2, 3].map t.readRe, [0, 1, 2, 3].map t.readIm)) =
      some ([ONE, TWO, THREE, FOUR], [NZERO, 0x3C5A62633145C070#64, NZERO, 0xBC5A62633145C070#64]) := by decide +kernel

/-- V-T10a, V-T10b. -/
theorem test_ifft_faults : (after .ifft { block with len := 3#32 }).map State.status = some 0x0200#16 ∧
    (after .ifft { block with len := 32#32 }).map State.status = some 0x0300#16 := by decide

/-- V-G4a: a NaN bin is skipped. -/
theorem test_magmax : (after .magmax (coeffs 2#32 [QNAN, THREE] [PZERO, FOUR])).map State.maxmag = some FIVE := by decide +kernel

/-- V-G4c. -/
theorem test_magmax_empty : (after .magmax { block with maxmag := FIVE }).map State.maxmag = some PZERO := by decide +kernel

/-- V-G2b. -/
theorem test_thrset :
    (after .thrset { block with thrf := 0x3FD3333333333333#64, maxmag := 0x4065E00000000000#64 }).map State.thr =
      some 0x404A400000000000#64 := by decide +kernel

/-- V-G2f. -/
theorem test_thrset_nan : (after .thrset { block with maxmag := PINF }).map (fun t => isNaN t.thr) = some true := by decide +kernel

/-- V-G3a and V-G3b: the comparison is strict. -/
theorem test_gate_strict :
    (after .gate { coeffs 2#32 [THREE, FIVE] [FOUR, PZERO] with thr := FIVE }).map (fun t => (t.bin 0, t.bin 1)) =
        some ({ re := THREE, im := FOUR }, { re := FIVE, im := PZERO }) ∧
      (after .gate { coeffs 2#32 [THREE, FIVE] [FOUR, PZERO] with thr := 0x4014000000000001#64 }).map
          (fun t => (t.bin 0, t.bin 1)) = some ({ re := PZERO, im := PZERO }, { re := PZERO, im := PZERO }) := by decide +kernel

/-- V-G3c: a NaN magnitude survives an infinite threshold. -/
theorem test_gate_nan :
    (after .gate { coeffs 2#32 [QNAN, ONE] [PZERO, PZERO] with thr := PINF }).map (fun t => (t.bin 0, t.bin 1)) =
      some ({ re := QNAN, im := PZERO }, { re := PZERO, im := PZERO }) := by decide +kernel

/-- V-Q20. -/
theorem test_trunc :
    (after .trunc { coeffs 4#32 [ONE, ONE, ONE, NINE] [] with olen := 3#32 }).map (fun t => (t.len, t.olen, t.readRe 3)) =
      some (3#32, 3#32, NINE) := by decide

/-- V-Q22, V-Q23. -/
theorem test_trunc_faults : (after .trunc { block with len := 4#32, olen := 5#32 }).map State.status = some 0x0500#16 ∧
    (after .trunc { block with len := 17#32, olen := 18#32 }).map State.status = some 0x0300#16 := by decide

/-- V-Q13. -/
theorem test_quant :
    (after .quant { coeffs 3#32 [0x40633CFEE40C5E48#64, 0xBFE0000000000000#64, 0x405FD9999999999A#64] [] with
        bits := 8#32, slen := 9#32, smp := mem32 [0#32, 0#32, 0#32, 77#32] }).map
        (fun t => ([0, 1, 2, 3].map t.readSmp, t.slen, t.len)) =
      some ([0xFFFFFF9A#32, 0xFFFFFFFF#32, 0x0000007F#32, 77#32], 3#32, 3#32) := by decide +kernel

/-- V-Q15: nothing is written before the fault. -/
theorem test_quant_nonfinite :
    (after .quant { coeffs 3#32 [ONE, PINF, QNAN] [] with bits := 16#32, slen := 1#32, smp := mem32 [55#32] }).map
      (fun t => (t.status, t.readSmp 0, t.slen)) = some (0x0600#16, 55#32, 1#32) := by decide +kernel

/-- V-D10. -/
theorem test_denoise :
    (after .denoise (channel 2#32 8#32 HALF [2#32, 3#32])).map
        (fun t => ([0, 1].map t.readSmp, [t.maxmag, t.thr], [t.slen, t.len, t.olen], t.status)) =
      some ([3#32, 3#32], [FIVE, 0x4004000000000000#64], [2#32, 2#32, 2#32], 2#16) := by decide +kernel

/-- V-D11b, V-D11c. -/
theorem test_denoise_faults :
    after .denoise (channel 2#32 0#32 HALF [2#32, 3#32]) = some ((channel 2#32 0#32 HALF [2#32, 3#32]).setStatus 0x0400#16) ∧
      (after .denoise (channel 17#32 0#32 HALF [])).map State.status = some 0x0300#16 := by decide

/-! ### Steps -/

/-- V-S3, V-S4: an illegal word, accepted and completed; the word stays in `CMD`. -/
theorem test_illegal_word :
    (stepped (block.withFetchWord 32 0x120)).map (fun t => (t.cmd, t.status)) = some (0x00000120#32, 0x0100#16) := by decide

/-- V-S5: the low 32 bits of a `CMD` write are the command. -/
theorem test_cmd_low_bits :
    (stepped (block.setPending [.access (.writeReg 0 0x0000000100000020#64)])).map (fun t => (t.cmd, t.status)) =
      some (0x00000020#32, 0x0001#16) := by decide

/-- V-S6: in the fault state a `NOP` is ignored. -/
theorem test_fault_state_ignores :
    stepped ((faulted.setCmd 0x20#32).setPending [.access (.writeReg 0 0#64)]) = some (faulted.setCmd 0x20#32) := by decide

/-- V-S7, V-S9: what a host write stores is what a host read gives. -/
theorem test_host_write_read :
    (stepped (block.setPending [.access (.writeReg 3 0x0000000500000003#64)])).map (fun t => registerValue t 3) = some 3#64 ∧
      (stepped (block.setPending [.access (.writeRe 0 0x7FF0000000000001#64)])).map (fun t => t.readRe 0) =
        some 0x7FF0000000000001#64 := by decide

/-- V-S10: the poll between acceptance and completion. -/
theorem test_status_poll :
    (stepped ((accepted 0x20#32).setPending [.access (.readReg 1)])).map State.replies = some [.word64 1#64] := by decide

/-- The host's three mistakes (20 R43, 70 R162, R164). -/
theorem test_refusals :
    step (block.setPending [.access (.readSmp 16)]) = .fault (.noSuchElement .smp 16) ∧
      step ((accepted 0x20#32).setPending [.access (.readReg 3)]) = .refused (.accessWhileBusy (.readReg 3)) ∧
      step ((accepted 0x20#32).setPending [.access (.writeReg 0 1#64)]) = .refused (.cmdWriteWhileBusy 1#32) := ⟨rfl, rfl, rfl⟩

/-! ### Witnesses: states and operands that meet the hypotheses of a statement together, each clause at an edge of its range -/

/-- IllegalWordRecordsCodeOne: a reserved opcode, and a reserved bit. -/
theorem witness_illegal_word :
    ((accepted 0x02#32).busy = true ∧ ∀ i, (accepted 0x02#32).cmd ≠ encode i) ∧
      (accepted 0x120#32).busy = true ∧ ∀ i, (accepted 0x120#32).cmd ≠ encode i :=
  ⟨⟨by decide, fun i => by cases i <;> decide⟩, by decide, fun i => by cases i <;> decide⟩

/-- StepRunsAcceptedCommand: busy and idle, with no event left and with the engine's turn next. -/
theorem witness_step_runs :
    ((accepted 0x20#32).busy = true ∧ decode (accepted 0x20#32).cmd = .ok .fft ∧ (accepted 0x20#32).pending = []) ∧
      (((accepted 0x20#32).setPending [.engine, .reset]).busy = true ∧
        ((accepted 0x20#32).setPending [.engine, .reset]).pending = .engine :: [.reset]) ∧
      block.busy = false ∧ block.pending = [] ∧ (block.setPending [.engine]).busy = false ∧
      (block.setPending [.engine]).pending = .engine :: [] := ⟨⟨rfl, rfl, rfl⟩, ⟨rfl, rfl⟩, rfl, rfl, rfl, rfl⟩

/-- CommandWriteIsAcceptance: busy; the fault state with another word; idle without fault; the fault state with `SRST`. -/
theorem witness_command_write :
    (accepted 0x20#32).busy = true ∧
      (faulted.busy = false ∧ faulted.faultCode ≠ 0#8 ∧ BitVec.extractLsb' 0 32 0x20#64 ≠ 0x00000001#32) ∧
      (block.busy = false ∧ block.faultCode = 0#8) ∧
      faulted.busy = false ∧ BitVec.extractLsb' 0 32 0xFFFFFFFF00000001#64 = 0x00000001#32 := by decide

/-- RegisterWritesKeepTheirBits, on each register it names; `CMD` without a fault and with `SRST` in the fault state. -/
theorem witness_register_writes : block.busy = false ∧ block.faultCode = 0#8 ∧ (faulted.busy = false ∧ faulted.faultCode ≠ 0#8) ∧
    BitVec.extractLsb' 0 32 0x0000000500000001#64 = 0x00000001#32 ∧
    registerValue (performAccess (.writeReg 0 0x0000000500000001#64) faulted) 0 = 1#64 ∧
    ([2, 3, 4, 5].all fun i => registerValue (performAccess (.writeReg i 0xFFFFFFFF80000001#64) block) i == 0x80000001#64) = true ∧
    ([6, 8].all fun i =>
      registerValue (performAccess (.writeReg i 0xFFF0000000000001#64) block) i == 0xFFF0000000000001#64) = true := by decide

/-- ReadsAndIgnoredWritesChangeNothing: the first and last register, the last element, and the registers that ignore writes. -/
theorem witness_reads_and_ignored : block.busy = false ∧ 15 < 16 ∧ 15 < block.cap ∧ 0 < tiny.cap ∧ tiny.busy = false ∧
    ([1, 7, 9, 15].all fun i => performAccess (.writeReg i 0xFFFFFFFFFFFFFFFF#64) block == block) = true := by decide

/-- ElementWritesStoreThePattern: the last element, and the only one of the smallest block. -/
theorem witness_element_writes : (block.busy = false ∧ 15 < block.cap) ∧ tiny.busy = false ∧ 0 < tiny.cap := by decide

/-- AccessesAnsweredExactlyWhenPermitted: an index past the end, an access while idle, a poll and another access while busy. -/
theorem witness_accesses :
    Access.wf tiny.cap (.writeRe 1 0#64) = false ∧ (Access.wf block.cap (.readSmp 15) = true ∧ block.busy = false) ∧
      (Access.wf (accepted 0x20#32).cap (.readReg 1) = true ∧ (accepted 0x20#32).busy = true) ∧
      Access.wf (accepted 0x20#32).cap (.writeReg 1 0#64) = true ∧ Access.writeReg 1 0#64 ≠ .readReg 1 := by decide

/-- StatusPollShowsBusy: no fault recorded, and `SRST` in the fault state (whose poll reads `0x201`). -/
theorem witness_status_poll : (block.busy = false ∧ block.faultCode = 0#8) ∧ faulted.busy = false ∧ faulted.faultCode = 2#8 ∧
    registerValue (acceptCommand 0x00000001#32 faulted) 1 = 0x201#64 := by decide

/-- ResetEventFromAnyState: a reset while a command is in progress. -/
theorem witness_reset_event : ((accepted 0x50#32).setPending [.reset, .engine]).pending = .reset :: [.engine] ∧
    ((accepted 0x50#32).setPending [.reset, .engine]).busy = true := ⟨rfl, rfl⟩

/-- StepAnswersExactlyUnderProtocol: both sides of the equivalence occur. -/
theorem witness_protocol : block.protocolKept = true ∧ ((accepted 0#32).setPending [.access (.readReg 1)]).protocolKept = true ∧
    ((accepted 0#32).setPending [.access (.readReg 2)]).protocolKept = false ∧
    (tiny.setPending [.access (.readIm 1)]).protocolKept = false := by decide

/-- The memories of a small loaded block are legal. -/
theorem loaded_legal (s : State) (h : s.smp.wf s.cap = true ∧ s.re.wf s.cap = true ∧ s.im.wf s.cap = true ∧
    s.smp.draw < s.draws ∧ s.re.draw < s.draws ∧ s.im.draw < s.draws) : s.MemoriesLegal := h

/-- StepKeepsInvariant, ParametersNeverChange: a loaded block with `FFT` accepted meets the invariant and steps. -/
theorem witness_invariant :
    (acceptCommand 0x20#32 (coeffs 2#32 [ONE, TWO] [PZERO, PZERO])).Inv ∧
      ∃ t, step (acceptCommand 0x20#32 (coeffs 2#32 [ONE, TWO] [PZERO, PZERO])) = .next t ∧ t.done = true :=
  ⟨⟨loaded_legal _ (by decide), by unfold StatusLegal; decide, by decide⟩, steps (by decide +kernel)⟩

/-- FaultIsSticky: a host write in the fault state, and `SRST` in progress there. -/
theorem witness_fault_sticky :
    ((faulted.setPending [.access (.writeReg 3 5#64)]).Inv ∧ (faulted.setPending [.access (.writeReg 3 5#64)]).faultCode ≠ 0#8 ∧
        (∀ rest, (faulted.setPending [.access (.writeReg 3 5#64)]).pending ≠ .reset :: rest) ∧
        ∃ t, step (faulted.setPending [.access (.writeReg 3 5#64)]) = .next t ∧ (t.faultCode == 2#8) = true) ∧
      (acceptCommand 0x00000001#32 faulted).Inv ∧ (acceptCommand 0x00000001#32 faulted).faultCode ≠ 0#8 ∧
      (∀ rest, (acceptCommand 0x00000001#32 faulted).pending ≠ .reset :: rest) ∧
      ∃ t, step (acceptCommand 0x00000001#32 faulted) = .next t ∧ (t.status == 0#16) = true :=
  ⟨⟨⟨loaded_legal _ (by decide), by unfold StatusLegal; decide, by decide⟩, by decide,
      fun rest h => (by cases (show [Event.access (.writeReg 3 5#64)] = Event.reset :: rest from h)),
      steps (by decide)⟩,
    ⟨loaded_legal _ (by decide), by unfold StatusLegal; decide, by decide⟩, by decide,
    fun rest h => (by cases (show ([] : List Event) = Event.reset :: rest from h)),
    steps (by decide)⟩

/-- RoundingIsToNearestEven at the overflow threshold of 40 R67: the infinity there, the largest finite value one unit below. -/
theorem witness_rounding : rn false ((2 ^ 54 - 1) * 2 ^ 2044) 1 = PINF ∧
    rn true ((2 ^ 54 - 1) * 2 ^ 2044 - 1) 1 = 0xFFEFFFFFFFFFFFFF#64 ∧ isFinite 0x7FEFFFFFFFFFFFFF#64 = true ∧ rn true 1 2 = NZERO ∧
    rn false 3 2 = 2#64 := by decide +kernel

/-- SquareRootIsNearest: the smallest and the largest positive finite value. -/
theorem witness_square_root :
    (isFinite 1#64 = true ∧ isZero 1#64 = false ∧ isNeg 1#64 = false) ∧ isFinite 0x7FEFFFFFFFFFFFFF#64 = true ∧
      isZero 0x7FEFFFFFFFFFFFFF#64 = false ∧ isNeg 0x7FEFFFFFFFFFFFFF#64 = false := by decide

/-- AdditionAndMultiplicationCommute: results that are not NaN. -/
theorem witness_commute : isNaN (fadd testConfig NZERO PZERO) = false ∧ isNaN (fmul testConfig PINF NEG1) = false := by
  decide +kernel

/-- ArithmeticResults: operands under every clause, with the results of V-N1 where it gives them. -/
theorem witness_arithmetic :
    (isNaN QNAN = true ∧ isInf PINF = true ∧ isInf (infinity true) = true ∧ isNeg PINF ≠ isNeg (infinity true) ∧
        isFinite NEG1 = true ∧ isZero NZERO = true ∧ isZero ONE = false ∧ isNeg NEG1 = true) ∧
      (fadd testConfig PINF ONE = PINF ∧ fadd testConfig ONE NEG1 = PZERO ∧ fadd testConfig NZERO NZERO = NZERO ∧
        fadd testConfig PINF PINF = PINF ∧ fadd testConfig NEG1 (infinity true) = infinity true) ∧
      (isNaN (fmul testConfig NZERO PINF) = true ∧ fmul testConfig NEG1 PINF = infinity true ∧ fmul testConfig NZERO ONE = NZERO ∧
        fmul testConfig TWO TWO = FOUR) ∧
      (isNaN (fdiv testConfig PINF (infinity true)) = true ∧ fdiv testConfig PINF NEG1 = infinity true ∧
        fdiv testConfig NEG1 PINF = NZERO ∧ fdiv testConfig NEG1 PZERO = infinity true ∧ fdiv testConfig NZERO FOUR = NZERO ∧
        fdiv testConfig ONE FOUR = 0x3FD0000000000000#64) ∧
      isNaN (fsqrt testConfig (infinity true)) = true ∧ fsqrt testConfig NZERO = NZERO ∧ fsqrt testConfig PINF = PINF := by
  decide +kernel

/-- SubtractionLaws: non-NaN operands, a NaN on either side, and a finite operand. -/
theorem witness_subtraction : (isNaN PINF = false ∧ isNaN NZERO = false) ∧ isNaN QNAN = true ∧
    isNaN 0xFFF0000000000001#64 = true ∧ isFinite 0xFFEFFFFFFFFFFFFF#64 = true := by decide

/-- NaNResultsAreQuiet: each operation gives a NaN somewhere. -/
theorem witness_nan_results : isNaN (fadd testConfig PINF (infinity true)) = true ∧ isNaN (fsub testConfig QNAN ONE) = true ∧
    isNaN (fmul testConfig PZERO PINF) = true ∧ isNaN (fdiv testConfig PZERO NZERO) = true ∧
    isNaN (fsqrt testConfig NEG1) = true := by decide +kernel

/-- LessThanIsTheOrderOfValues: a NaN operand, and two finite ones at the ends of the range. -/
theorem witness_less_than : isNaN QNAN = true ∧ (isFinite 0xFFEFFFFFFFFFFFFF#64 = true ∧ isFinite 0x7FEFFFFFFFFFFFFF#64 = true) ∧
    value 0xFFEFFFFFFFFFFFFF#64 < value 0x7FEFFFFFFFFFFFFF#64 ∧ flt PINF (infinity true) = false := by decide +kernel

/-- IntegersConvertExactly at both ends, 40 R76 and V-N4. -/
theorem witness_integers : (-(2 ^ 31) ≤ (-(2 ^ 31) : Int) ∧ (2 ^ 31 : Int) ≤ 2 ^ 31) ∧
    i2f (-(2 ^ 31)) = 0xC1E0000000000000#64 ∧ i2f (2 ^ 31) = 0x41E0000000000000#64 := by decide +kernel

/-- RoundIntIsNearest: a tie, under both rules. -/
theorem witness_round_int : isFinite HALF = true ∧ 2 * (roundInt .away HALF * 2 ^ 1074 - value HALF).natAbs = 2 ^ 1074 ∧
    2 * (roundInt .even HALF * 2 ^ 1074 - value HALF).natAbs = 2 ^ 1074 := by decide +kernel

/-- WrapIsTheSignedResidue: the three widths, in range at an end and just outside it (40 R81). -/
theorem witness_wrap : wrapInt 8 (-128) = -128 ∧ wrapInt 8 128 = -128 ∧ wrapInt 8 (-129) = 127 ∧ wrapInt 16 32768 = -32768 ∧
    wrapInt 32 (2 ^ 31) = -(2 ^ 31) ∧ wrapInt 32 (2 ^ 31 - 1) = 2 ^ 31 - 1 := by decide

/-- PowerOfTwoLaws: a power of two, a number that is none, and a number at a capacity. -/
theorem witness_powers : ispow2 1 = true ∧ (3 ≠ 0 ∧ ispow2 3 = false ∧ ispow2 4 = true ∧ 3 < 4) ∧ 16 ≤ 2 ^ 4 := by decide

/-- TrigProperties, MagnitudeIsNaNOrNonNegative: a finite argument; a NaN magnitude and one that is not. -/
theorem witness_trig_and_magnitude : isFinite PI_D = true ∧ isNaN (mag testConfig { re := PINF, im := QNAN }) = true ∧
    isNaN (mag testConfig { re := NZERO, im := PINF }) = false := by decide +kernel

/-- AnglesAndFirstTwiddle: the shortest sub-transform, and the last index of the longest. -/
theorem witness_angles : (1 ≤ 1 ∧ 1 ≤ 30 ∧ 0 < 2 ^ (1 - 1)) ∧ 1 ≤ 30 ∧ 30 ≤ 30 ∧ 2 ^ 29 - 1 < 2 ^ (30 - 1) := by decide

/-- ForwardTransformRecursion, InverseTransformByConjugation, IterativeScheduleGivesTheSameBits: lengths 0, 1 and 2. -/
theorem witness_transform_lengths :
    ([] : List Bin).length ≤ 1 ∧ [(⟨ONE, PZERO⟩ : Bin)].length ≤ 1 ∧ [(⟨ONE, PZERO⟩ : Bin)].length = 2 ^ 0 ∧
      [(⟨ONE, PZERO⟩ : Bin), ⟨TWO, PZERO⟩].length = 2 ^ (0 + 1) ∧ 0 < 2 ^ 0 ∧
      (fft testConfig ([(⟨ONE, PZERO⟩ : Bin), ⟨ONE, PZERO⟩].map fun b => { re := b.re, im := fneg b.im }))[1]? =
        some { re := PZERO, im := PZERO } ∧
      isNaN NZERO = false ∧ isNaN PINF = false := by decide +kernel

/-- TofltCompletes: `SLEN = CAP` and `SLEN = 0`. -/
theorem witness_toflt :
    ({ tiny with slen := 1#32, smp := mem32 [5#32] }.slen.toNat ≤ { tiny with slen := 1#32, smp := mem32 [5#32] }.cap ∧
        ∃ t, exec .toflt { tiny with slen := 1#32, smp := mem32 [5#32] } = .next t ∧ (t.readRe 0 == FIVE && t.done) = true) ∧
      block.slen.toNat ≤ block.cap ∧ ∃ t, exec .toflt block = .next t ∧ t.done = true :=
  ⟨⟨by decide, answers (by decide +kernel)⟩, by decide, answers (by decide)⟩

/-- A block whose one coefficient is loaded and whose length is its capacity. -/
def full : State := { tiny with len := 1#32, re := mem64 [FIVE], im := mem64 [NINE], bits := 8#32 }

/-- ClrimCompletes, ZpadCompletes, FftrzpCompletes: `LEN = CAP` and `LEN = 0`. -/
theorem witness_convert : (full.len.toNat ≤ full.cap ∧ full.len.toNat = full.cap ∧ block.len.toNat ≤ block.cap) ∧
    (∃ t, exec .clrim full = .next t ∧ (t.readIm 0 == PZERO && t.done) = true) ∧
    (∃ t, exec .zpad full = .next t ∧ (t.len == 1#32 && t.done) = true) ∧
    (∃ t, exec .fftrzp full = .next t ∧ (t.bin 0 == { re := FIVE, im := PZERO } && t.done) = true) ∧
    (∃ t, exec .clrim block = .next t ∧ t.done = true) ∧ (∃ t, exec .zpad block = .next t ∧ t.done = true) ∧
    ∃ t, exec .fftrzp block = .next t ∧ t.done = true :=
  ⟨by decide, answers (by decide), answers (by decide +kernel), answers (by decide +kernel), answers (by decide),
    answers (by decide), answers (by decide)⟩

/-- FftCompletes, IfftCompletes: `LEN = 0`, `LEN = 1 = CAP`, and `LEN = CAP` on the larger block. -/
theorem witness_transforms : (full.len.toNat ≤ full.cap ∧ ispow2 full.len.toNat = true) ∧
    (block.len.toNat ≤ block.cap ∧ block.len.toNat = 0) ∧
    (({ block with len := 16#32 } : State).len.toNat ≤ block.cap ∧ ispow2 16 = true) ∧
    (∃ t, exec .fft full = .next t ∧ (t.bin 0 == { re := FIVE, im := NINE } && t.done) = true) ∧
    (∃ t, exec .ifft full = .next t ∧ (t.bin 0 == { re := FIVE, im := NINE } && t.done) = true) ∧
    (∃ t, exec .fft block = .next t ∧ t.done = true) ∧ ∃ t, exec .ifft block = .next t ∧ t.done = true :=
  ⟨by decide, by decide, by decide, answers (by decide +kernel), answers (by decide +kernel), answers (by decide),
    answers (by decide)⟩

/-- MagmaxCompletes, GateCompletes: `LEN = CAP` and `LEN = 0`; the gate's two clauses are those of `test_gate_strict`. -/
theorem witness_gate : full.len.toNat ≤ full.cap ∧ block.len.toNat ≤ block.cap ∧
    (∃ t, exec .magmax full = .next t ∧ (t.maxmag == mag full.config (full.bin 0) && t.done) = true) ∧
    (∃ t, exec .gate full = .next t ∧ (t.bin 0 == full.bin 0 && t.done) = true) ∧
    (∃ t, exec .magmax block = .next t ∧ t.done = true) ∧ ∃ t, exec .gate block = .next t ∧ t.done = true :=
  ⟨by decide, by decide, answers (by decide +kernel), answers (by decide +kernel), answers (by decide), answers (by decide)⟩

/-- TruncCompletes: `OLEN = LEN = CAP` and `OLEN = 0`. -/
theorem witness_trunc : ({ full with olen := 1#32 }.len.toNat ≤ full.cap ∧ { full with olen := 1#32 }.olen.toNat ≤ full.len.toNat) ∧
    full.len.toNat ≤ full.cap ∧ full.olen.toNat ≤ full.len.toNat ∧ full.olen.toNat = 0 := by decide

/-- QuantCompletes: each width, `LEN = CAP` with a finite value, and `LEN = 0`. -/
theorem witness_quant :
    (full.len.toNat ≤ full.cap ∧ full.bits = 8#32 ∧ ∀ i, i < full.len.toNat → isFinite (full.readRe i) = true) ∧
      (∃ t, exec .quant full = .next t ∧ (t.readSmp 0 == 5#32 && t.slen == 1#32 && t.done) = true) ∧
      (∃ t, exec .quant { full with bits := 16#32 } = .next t ∧ (t.readSmp 0 == 5#32 && t.done) = true) ∧
      (∃ t, exec .quant { full with bits := 32#32 } = .next t ∧ (t.readSmp 0 == 5#32 && t.done) = true) ∧
      ∃ t, exec .quant { block with bits := 8#32, slen := 9#32 } = .next t ∧ (t.slen == 0#32 && t.done) = true :=
  ⟨by decide, answers (by decide +kernel), answers (by decide +kernel), answers (by decide +kernel), answers (by decide)⟩

/-- DenoiseCompletes, DenoiseFrame (completing): `SLEN = CAP = 1` (V-D6a's sample survives at fraction 1) and `SLEN = 0`. -/
theorem witness_denoise :
    ({ tiny with slen := 1#32, bits := 8#32 }.slen.toNat ≤ tiny.cap ∧ { tiny with bits := 8#32 }.bits = 8#32) ∧
      (∃ t, exec .denoise { tiny with slen := 1#32, bits := 8#32, thrf := ONE, smp := mem32 [7#32] } = .next t ∧
        (t.readSmp 0 == 7#32 && t.done) = true) ∧
      ∃ t, exec .denoise { block with bits := 16#32 } = .next t ∧ t.done = true :=
  ⟨by decide, answers (by decide +kernel), answers (by decide +kernel)⟩

/-- CapacityIsTheFirstCheck: one above the capacity, for the register each command reads. -/
theorem witness_capacity : ({ block with slen := 17#32 } : State).cap < ({ block with slen := 17#32 } : State).slen.toNat ∧
    ({ block with len := 17#32 } : State).cap < ({ block with len := 17#32 } : State).len.toNat := by decide

/-- OwnChecksRecordTheirCodes: each clause. -/
theorem witness_own_checks :
    (({ block with len := 3#32 } : State).len.toNat ≤ block.cap ∧ 3 ≠ 0 ∧ ispow2 ({ block with len := 3#32 } : State).len.toNat = false) ∧
      (block.bits ≠ 8#32 ∧ block.bits ≠ 16#32 ∧ block.bits ≠ 32#32 ∧ block.len.toNat ≤ block.cap ∧ block.slen.toNat ≤ block.cap) ∧
      (({ block with len := 16#32, olen := 17#32 } : State).len.toNat ≤ block.cap ∧
        ({ block with len := 16#32, olen := 17#32 } : State).len.toNat < ({ block with len := 16#32, olen := 17#32 } : State).olen.toNat) ∧
      ({ coeffs 2#32 [ONE, PINF] [] with bits := 16#32 }.len.toNat ≤ block.cap ∧ 1 < (coeffs 2#32 [ONE, PINF] []).len.toNat ∧
        isFinite ((coeffs 2#32 [ONE, PINF] []).readRe 1) = false) := by decide

/-- GateEdgeCases: fraction 0 with a finite maximum, fraction 1, and a silent channel with a finite fraction. -/
theorem witness_gate_edges :
    (full.len.toNat ≤ full.cap ∧ full.thrf = PZERO ∧
        (match runCommands [.magmax, .thrset, .gate] full with
          | .next t => isFinite t.maxmag
          | .fault _ => false
          | .refused _ => false) = true) ∧
      ({ full with thrf := ONE } : State).thrf = ONE ∧
      isFinite HALF = true ∧ (coeffs 1#32 [NZERO] [PZERO]).len.toNat ≤ block.cap ∧
      ∀ i, i < (coeffs 1#32 [NZERO] [PZERO]).len.toNat →
        isZero ((coeffs 1#32 [NZERO] [PZERO]).readRe i) = true ∧ isZero ((coeffs 1#32 [NZERO] [PZERO]).readIm i) = true :=
  ⟨⟨by decide, by decide, by decide +kernel⟩, rfl, by decide, by decide, by decide⟩

/-- DenoiseIgnoresTheScratchState: two blocks with the same channel and different scratch state, both completing. -/
theorem witness_denoise_scratch :
    (channel 1#32 8#32 ONE [7#32]).config = ({ channel 1#32 8#32 ONE [7#32] with len := 9#32, re := mem64 [NINE] } : State).config ∧
      (∃ t, exec .denoise (channel 1#32 8#32 ONE [7#32]) = .next t ∧ (t.readSmp 0 == 7#32) = true) ∧
      ∃ t, exec .denoise { channel 1#32 8#32 ONE [7#32] with len := 9#32, re := mem64 [NINE] } = .next t ∧
        (t.readSmp 0 == 7#32) = true :=
  ⟨rfl, answers (by decide +kernel), answers (by decide +kernel)⟩

/-- SystemCommandsFrame, ConvertAndPadFrame, TransformFrame, GateFrame, RequantFrame, DenoiseFrame: each command answers a next
state that completes, and each that can fault one that faults. -/
theorem witness_frames_system : (∃ t, exec .nop block = .next t ∧ t.done = true) ∧
    ∃ t, exec .srst faulted = .next t ∧ (t.status == 0#16) = true := ⟨answers (by decide), answers (by decide)⟩

theorem witness_frames_faulted (i : Instr) (h : i ∈ [Instr.toflt, .clrim, .zpad, .fftrzp, .fft, .ifft, .magmax, .gate, .trunc,
    .quant, .denoise]) : ∃ t, exec i { block with slen := 17#32, len := 17#32 } = .next t ∧ (t.status == 0x0300#16) = true :=
  answers (by revert i h; decide)

theorem witness_frames_gate : (∃ t, exec .thrset block = .next t ∧ t.done = true) ∧
    (∃ t, exec .trunc block = .next t ∧ t.done = true) := ⟨answers (by decide +kernel), answers (by decide)⟩

end Sys2Proof.Tests
end

section
/-!
SUPPORT. What every answer of a step keeps (10_state.md R22, R30; 20_memory.md R43; 60_exceptions.md R150): the part of the state
that no command's writes touch, everything a command and a step can answer, and from these the invariant and the parameters.
-/

namespace Sys2Proof.Machine

/-! The lengths that bound the elements a command writes. -/

theorem npow2_le_two_pow {n k : Nat} (h : n ≤ 2 ^ k) : npow2 n ≤ 2 ^ k := by
  unfold npow2
  split
  · exact Nat.zero_le _
  · next h0 =>
    split
    · exact h
    · next hp =>
      have hne : n ≠ 2 ^ k := by
        rintro rfl
        simp [ispow2] at hp
      exact Nat.pow_le_pow_right Nat.two_pos ((Nat.log2_lt h0).mpr (lt_of_le_of_ne h hne))

/-- A transform is never longer than its input, whatever the length and the depth. -/
theorem fftDepth_length_le (c : Config) (d : Nat) (x : List Bin) : (fftDepth c d x).length ≤ x.length := by
  induction d generalizing x with
  | zero => exact le_rfl
  | succ d ih =>
    rw [fftDepth]
    split
    · exact le_rfl
    · have ho : (fftDepth c d (odds x)).length ≤ x.length / 2 := odds_length x ▸ ih (odds x)
      rw [combine_length]
      omega

theorem fft_length_le (c : Config) (x : List Bin) : (fft c x).length ≤ x.length := fftDepth_length_le c _ x

theorem ifft_length_le (c : Config) (x : List Bin) : (ifft c x).length ≤ x.length := by
  simpa [ifft] using fft_length_le c (x.map conjugate)

/-! What the pseudocode of every command keeps. -/

/-- From `s` to `t` the parameters and `STATUS` are unchanged, and legal memories stay legal. -/
structure Keeps (s t : State) : Prop where
  config : t.config = s.config
  status : t.status = s.status
  memories : s.MemoriesLegal → t.MemoriesLegal

namespace Keeps

variable {s t u : State}

theorem refl (s : State) : Keeps s s := ⟨rfl, rfl, id⟩

theorem trans (h : Keeps s t) (h' : Keeps t u) : Keeps s u :=
  ⟨h'.config.trans h.config, h'.status.trans h.status, h'.memories ∘ h.memories⟩

theorem cap (h : Keeps s t) : t.cap = s.cap := by rw [State.cap, State.cap, h.config]

theorem busy (h : Keeps s t) : t.busy = s.busy := by rw [State.busy, State.busy, h.status]

theorem faultCode (h : Keeps s t) : t.faultCode = s.faultCode := by rw [State.faultCode, State.faultCode, h.status]

theorem setSmp {m : Mem 32} (hwf : s.smp.wf s.cap = true → m.wf s.cap = true) (hdraw : m.draw = s.smp.draw) :
    Keeps s (s.setSmp m) := by
  refine ⟨rfl, rfl, ?_⟩
  rintro ⟨hsmp, hre, him, dsmp, dre, dim⟩
  exact ⟨hwf hsmp, hre, him, hdraw.trans_lt dsmp, dre, dim⟩

theorem setRe {m : Mem 64} (hwf : s.re.wf s.cap = true → m.wf s.cap = true) (hdraw : m.draw = s.re.draw) :
    Keeps s (s.setRe m) := by
  refine ⟨rfl, rfl, ?_⟩
  rintro ⟨hsmp, hre, him, dsmp, dre, dim⟩
  exact ⟨hsmp, hwf hre, him, dsmp, hdraw.trans_lt dre, dim⟩

theorem setIm {m : Mem 64} (hwf : s.im.wf s.cap = true → m.wf s.cap = true) (hdraw : m.draw = s.im.draw) :
    Keeps s (s.setIm m) := by
  refine ⟨rfl, rfl, ?_⟩
  rintro ⟨hsmp, hre, him, dsmp, dre, dim⟩
  exact ⟨hsmp, hre, hwf him, dsmp, dre, hdraw.trans_lt dim⟩

theorem fillRe {is : List Nat} (h : ∀ i ∈ is, i < s.cap) (v : Binary64) : Keeps s (s.setRe (s.re.fillAt v is)) :=
  setRe (fun hw => Mem.wf_fillAt v is hw h) (Mem.fillAt_draw v is s.re)

theorem fillIm {is : List Nat} (h : ∀ i ∈ is, i < s.cap) (v : Binary64) : Keeps s (s.setIm (s.im.fillAt v is)) :=
  setIm (fun hw => Mem.wf_fillAt v is hw h) (Mem.fillAt_draw v is s.im)

theorem fillReIm {is : List Nat} (h : ∀ i ∈ is, i < s.cap) (v : Binary64) :
    Keeps s ((s.setRe (s.re.fillAt v is)).setIm (s.im.fillAt v is)) :=
  (fillRe h v).trans (fillIm (s := s.setRe (s.re.fillAt v is)) h v)

theorem storeBins {x : List Bin} (h : x.length ≤ s.cap) : Keeps s (s.storeBins x) :=
  (setRe (fun hw => Mem.wf_writeList _ hw (by simpa using h)) (Mem.writeList_draw _ _ _)).trans
    (setIm (fun hw => Mem.wf_writeList _ hw (by simpa using h)) (Mem.writeList_draw _ _ _))

end Keeps

section Writes

variable {s : State}

theorem npow2_le_cap (h : s.len.toNat ≤ s.cap) : npow2 s.len.toNat ≤ s.cap := npow2_le_two_pow h

theorem padRange_lt_cap (h : s.len.toNat ≤ s.cap) : ∀ i ∈ padRange s.len.toNat, i < s.cap :=
  fun _ hi => (mem_padRange.mp hi).2.trans_le (npow2_le_cap h)

theorem padLength_len_le_cap (h : s.len.toNat ≤ s.cap) : (padLength s).len.toNat ≤ s.cap := by
  simpa [padLength] using (Nat.mod_le _ _).trans (npow2_le_cap h)

theorem convertSamples_keeps (h : s.slen.toNat ≤ s.cap) : Keeps s (convertSamples s) :=
  (Keeps.setRe (fun hw => Mem.wf_writeList _ hw (by simpa using h)) (Mem.writeList_draw _ _ _)).trans ⟨rfl, rfl, id⟩

theorem clearImaginary_keeps (h : s.len.toNat ≤ s.cap) : Keeps s (clearImaginary s) :=
  Keeps.fillIm (fun _ hi => (List.mem_range.mp hi).trans_le h) PZERO

theorem padLength_keeps (s : State) : Keeps s (padLength s) := ⟨rfl, rfl, id⟩

theorem padZeros_keeps (h : s.len.toNat ≤ s.cap) : Keeps s (padZeros s) :=
  (Keeps.fillReIm (padRange_lt_cap h) PZERO).trans (padLength_keeps _)

theorem forwardTransform_keeps (h : s.len.toNat ≤ s.cap) : Keeps s (forwardTransform s) :=
  Keeps.storeBins ((fft_length_le _ _).trans (by simpa using h))

theorem inverseTransform_keeps (h : s.len.toNat ≤ s.cap) : Keeps s (inverseTransform s) :=
  Keeps.storeBins ((ifft_length_le _ _).trans (by simpa using h))

theorem padAndTransform_keeps (h : s.len.toNat ≤ s.cap) : Keeps s (padAndTransform s) := by
  have hpad : Keeps s (padLength (s.setRe (s.re.fillAt PZERO (padRange s.len.toNat)))) :=
    (Keeps.fillRe (padRange_lt_cap h) PZERO).trans (padLength_keeps _)
  have hlen := padLength_len_le_cap (s := s.setRe (s.re.fillAt PZERO (padRange s.len.toNat))) h
  exact (hpad.trans (clearImaginary_keeps hlen)).trans (forwardTransform_keeps (by simpa using hlen))

theorem gateBins_keeps (h : s.len.toNat ≤ s.cap) : Keeps s (gateBins s) :=
  Keeps.fillReIm (fun _ hi => (List.mem_range.mp (List.mem_filter.mp hi).1).trans_le h) PZERO

theorem requantize_keeps (h : s.len.toNat ≤ s.cap) : Keeps s (requantize s) :=
  (Keeps.setSmp (fun hw => Mem.wf_writeList _ hw (by simpa using h)) (Mem.writeList_draw _ _ _)).trans ⟨rfl, rfl, id⟩

end Writes

/-- A run of pseudocode begun in `s` that ends without a fault keeps what `Keeps` says. -/
def EndKeeps (s : State) (r : Except CmdFault State) : Prop := ∀ t, r = .ok t → Keeps s t

namespace EndKeeps

variable {s : State}

theorem error (f : CmdFault) : EndKeeps s (.error f) := fun _ h => by cases h

theorem ok {t : State} (h : Keeps s t) : EndKeeps s (.ok t) := fun _ ht => by cases ht; exact h

theorem bind {r : Except CmdFault State} {code : State → Except CmdFault State} (hr : EndKeeps s r)
    (hcode : ∀ t, EndKeeps t (code t)) : EndKeeps s (r.bind code) := by
  cases r with
  | error f => exact error f
  | ok t => exact fun u hu => (hr t rfl).trans (hcode t u hu)

/-- Behind the length check the register is at most `CAP` (41 R85). -/
theorem withinCap {n : Reg32} {run : State → Except CmdFault State} (h : n.toNat ≤ s.cap → EndKeeps s (run s)) :
    EndKeeps s (withinCap n s run) := by
  rcases withinCap_cases s n run with ⟨-, hr⟩ | ⟨hc, hr⟩ <;> rw [hr]
  · exact error _
  · exact h hc

theorem powerOfTwoLen {run : State → Except CmdFault State} (h : EndKeeps s (run s)) :
    EndKeeps s (powerOfTwoLen s run) := by
  rcases powerOfTwoLen_cases s run with ⟨-, -, hr⟩ | ⟨-, hr⟩ <;> rw [hr]
  · exact error _
  · exact h

theorem widthLegal {run : State → Except CmdFault State} (h : EndKeeps s (run s)) : EndKeeps s (widthLegal s run) := by
  rcases widthLegal_cases s run with ⟨-, hr⟩ | ⟨-, hr⟩ <;> rw [hr]
  · exact error _
  · exact h

end EndKeeps

/-! The pseudocode of each command. -/

section Code

variable (s : State)

theorem tofltCode_keeps : EndKeeps s (tofltCode s) := .withinCap fun hc => .ok (convertSamples_keeps hc)

theorem clrimCode_keeps : EndKeeps s (clrimCode s) := .withinCap fun hc => .ok (clearImaginary_keeps hc)

theorem zpadCode_keeps : EndKeeps s (zpadCode s) := .withinCap fun hc => .ok (padZeros_keeps hc)

theorem fftrzpCode_keeps : EndKeeps s (fftrzpCode s) := .withinCap fun hc => .ok (padAndTransform_keeps hc)

theorem fftCode_keeps : EndKeeps s (fftCode s) :=
  .withinCap fun hc => .powerOfTwoLen (.ok (forwardTransform_keeps hc))

theorem ifftCode_keeps : EndKeeps s (ifftCode s) :=
  .withinCap fun hc => .powerOfTwoLen (.ok (inverseTransform_keeps hc))

theorem magmaxCode_keeps : EndKeeps s (magmaxCode s) := .withinCap fun _ => .ok ⟨rfl, rfl, id⟩

theorem thrsetCode_keeps : EndKeeps s (thrsetCode s) := .ok ⟨rfl, rfl, id⟩

theorem gateCode_keeps : EndKeeps s (gateCode s) := .withinCap fun hc => .ok (gateBins_keeps hc)

theorem truncCode_keeps : EndKeeps s (truncCode s) := by
  refine .withinCap fun _ => ?_
  split
  · exact .error _
  · exact .ok ⟨rfl, rfl, id⟩

theorem finiteThenRequantize_keeps (h : s.len.toNat ≤ s.cap) : EndKeeps s (finiteThenRequantize s) := by
  unfold finiteThenRequantize
  split
  · exact .error _
  · exact .ok (requantize_keeps h)

theorem quantCode_keeps : EndKeeps s (quantCode s) :=
  .withinCap fun hc => .widthLegal (finiteThenRequantize_keeps s hc)

theorem denoisePass_keeps : EndKeeps s (denoisePass s) :=
  (tofltCode_keeps s).bind fftrzpCode_keeps |>.bind magmaxCode_keeps |>.bind thrsetCode_keeps |>.bind gateCode_keeps
    |>.bind ifftCode_keeps |>.bind truncCode_keeps |>.bind quantCode_keeps

end Code

/-! Everything a command can answer, and everything a step can answer. -/

/-- The next states a command can answer when it is run in `s`: a fault taken in `s`, a fault of `DENOISE`'s pass taken with the
scratch state unspecified, an end without a fault, or the reset of the registers, which only `SRST` does. -/
inductive CommandAnswer (i : Instr) (s : State) : State → Prop
  | faulted (f : CmdFault) : CommandAnswer i s (raise f s)
  | lateFault (f : CmdFault) : CommandAnswer i s (raise f (unspecifyScratch s))
  | finished {t : State} (hi : i ≠ .srst) (h : Keeps s t) : CommandAnswer i s (finish t)
  | softReset (hi : i = .srst) : CommandAnswer i s (softReset s)

theorem complete_answers {i : Instr} {s : State} {r : Except CmdFault State} (hi : i ≠ .srst) (h : EndKeeps s r) :
    ∃ t, complete r s = .next t ∧ CommandAnswer i s t := by
  rcases complete_cases s r with ⟨f, -, hc⟩ | ⟨t, rfl, hc⟩
  · exact ⟨_, hc, .faulted f⟩
  · exact ⟨_, hc, .finished hi (h t rfl)⟩

theorem execDenoise_answers (s : State) : ∃ t, execDenoise s = .next t ∧ CommandAnswer .denoise s t := by
  rcases execDenoise_cases s with ⟨f, -, h⟩ | ⟨-, f, -, h⟩ | ⟨-, t, ht, h⟩
  · exact ⟨_, h, .faulted f⟩
  · exact ⟨_, h, .lateFault f⟩
  · exact ⟨_, h, .finished (by decide) (denoisePass_keeps s t ht)⟩

/-- Every command answers, and with one of the answers of `CommandAnswer` (30 R58, 60 R147). -/
theorem exec_answers (i : Instr) (s : State) : ∃ t, exec i s = .next t ∧ CommandAnswer i s t := by
  cases i with
  | nop => exact complete_answers (by decide) (.ok (.refl s))
  | srst => exact ⟨_, rfl, .softReset rfl⟩
  | toflt => exact complete_answers (by decide) (tofltCode_keeps s)
  | clrim => exact complete_answers (by decide) (clrimCode_keeps s)
  | zpad => exact complete_answers (by decide) (zpadCode_keeps s)
  | fftrzp => exact complete_answers (by decide) (fftrzpCode_keeps s)
  | fft => exact complete_answers (by decide) (fftCode_keeps s)
  | ifft => exact complete_answers (by decide) (ifftCode_keeps s)
  | magmax => exact complete_answers (by decide) (magmaxCode_keeps s)
  | thrset => exact complete_answers (by decide) (thrsetCode_keeps s)
  | gate => exact complete_answers (by decide) (gateCode_keeps s)
  | trunc => exact complete_answers (by decide) (truncCode_keeps s)
  | quant => exact complete_answers (by decide) (quantCode_keeps s)
  | denoise => exact execDenoise_answers s

/-- The next states one event can answer in `s`. -/
inductive EventAnswer (s : State) : State → Prop
  | waits : EventAnswer s s
  | illegal (f : CmdFault) : EventAnswer s (raise f s)
  | completes {i : Instr} {t : State} (hd : decode s.cmd = .ok i) (hb : s.busy = true) (h : CommandAnswer i s t) :
      EventAnswer s t
  | access {a : Access} (h : permitted a s = true) : EventAnswer s (performAccess a s)
  | reset : EventAnswer s (hardwareReset s)

theorem engineTurn_answers {s t : State} (h : engineTurn s = .next t) : EventAnswer s t := by
  cases hb : s.busy
  · rw [engineTurn_of_idle hb] at h
    cases h
    exact .waits
  · rw [engineTurn_of_busy hb] at h
    rcases completeCommand_cases s with ⟨i, hd, hc⟩ | ⟨e, hd, hc⟩ <;> rw [hc] at h
    · obtain ⟨u, hu, hans⟩ := exec_answers i s
      rw [hu] at h
      cases h
      exact .completes hd hb hans
    · cases h
      exact .illegal _

theorem hostAccess_answers {a : Access} {s t : State} (h : hostAccess a s = .next t) : EventAnswer s t := by
  rcases hostAccess_cases a s with ⟨-, hf⟩ | ⟨-, -, -, hr⟩ | ⟨hp, hn⟩
  · rw [hf] at h; cases h
  · rw [hr] at h; cases h
  · rw [hn] at h
    cases h
    exact .access hp

/-- What a step answers is what one event answers in the state less that event. -/
theorem step_answers {s t : State} (h : step s = .next t) : ∃ rest, EventAnswer (s.setPending rest) t := by
  rcases step_cases s with ⟨hp, hs⟩ | ⟨rest, -, hs⟩ | ⟨a, rest, -, hs⟩ | ⟨rest, -, hs⟩ <;> rw [hs] at h
  · exact ⟨s.pending, engineTurn_answers h⟩
  · exact ⟨rest, engineTurn_answers h⟩
  · exact ⟨rest, hostAccess_answers h⟩
  · cases h
    exact ⟨rest, .reset⟩

/-! Host accesses. -/

theorem writeRegister_keeps {i : Nat} (hi : i ≠ 0) (v : BitVec 64) (s : State) :
    Keeps s (writeRegister s i v) ∧ (writeRegister s i v).cmd = s.cmd := by
  unfold writeRegister
  split
  · exact absurd rfl hi
  all_goals exact ⟨⟨rfl, rfl, id⟩, rfl⟩

/-- A permitted access accepts a command word, or keeps `CMD` and what `Keeps` says: the index of an element it writes is below
`CAP` (20 R43). -/
theorem performAccess_cases {a : Access} {s : State} (h : permitted a s = true) :
    (∃ w, performAccess a s = acceptCommand w s) ∨
      (Keeps s (performAccess a s) ∧ (performAccess a s).cmd = s.cmd) := by
  have hwf : a.index < a.space.size s.cap := by
    simp only [permitted, Access.wf, Bool.and_eq_true, decide_eq_true_eq] at h
    exact h.1
  cases a with
  | readReg i => exact .inr ⟨⟨rfl, rfl, id⟩, rfl⟩
  | readSmp i => exact .inr ⟨⟨rfl, rfl, id⟩, rfl⟩
  | readRe i => exact .inr ⟨⟨rfl, rfl, id⟩, rfl⟩
  | readIm i => exact .inr ⟨⟨rfl, rfl, id⟩, rfl⟩
  | writeReg i v =>
    by_cases hi : i = 0
    · subst hi; exact .inl ⟨_, rfl⟩
    · exact .inr (writeRegister_keeps hi v s)
  | writeSmp i v => exact .inr ⟨.setSmp (fun hw => Mem.wf_write hw hwf v) rfl, rfl⟩
  | writeRe i v => exact .inr ⟨.setRe (fun hw => Mem.wf_write hw hwf v) rfl, rfl⟩
  | writeIm i v => exact .inr ⟨.setIm (fun hw => Mem.wf_write hw hwf v) rfl, rfl⟩

/-! The invariant. -/

theorem StatusLegal.zero : StatusLegal 0#16 := by unfold StatusLegal; decide

theorem statusLegal_statusWord_iff (b d : Bool) (f : BitVec 8) :
    StatusLegal (statusWord b d f) ↔ (b && d) = false ∧ (d = true → f = 0#8) ∧ f.toNat ≤ 6 := by
  simp [StatusLegal, statusWord_reserved]

theorem State.Inv.memoriesLegal {s : State} (h : s.Inv) : s.MemoriesLegal := h.1

theorem State.Inv.faultCode_le {s : State} (h : s.Inv) : s.faultCode.toNat ≤ 6 := by
  obtain ⟨-, ⟨-, -, -, hcode⟩, -⟩ := h
  exact hcode

/-- An idle state needs no more than legal memories and a legal status word. -/
theorem State.Inv.of_idle {s : State} (hmem : s.MemoriesLegal) (hst : StatusLegal s.status) (hidle : s.busy = false) :
    s.Inv :=
  ⟨hmem, hst, fun hb => by rw [hidle] at hb; cases hb⟩

theorem State.Inv.of_keeps {s t : State} (h : s.Inv) (hk : Keeps s t) (hcmd : t.cmd = s.cmd) : t.Inv := by
  obtain ⟨hmem, hst, hsticky⟩ := h
  refine ⟨hk.memories hmem, hk.status ▸ hst, ?_⟩
  rw [hk.busy, hk.faultCode, hcmd]
  exact hsticky

theorem unspecifyScratch_memoriesLegal {s : State} (h : s.MemoriesLegal) : (unspecifyScratch s).MemoriesLegal := by
  obtain ⟨hsmp, -, -, dsmp, -, -⟩ := h
  exact ⟨hsmp, rfl, rfl, Nat.lt_succ_of_lt dsmp, Nat.lt_succ_self _, Nat.lt_succ_self _⟩

theorem hardwareReset_inv (s : State) : (hardwareReset s).Inv :=
  .of_idle ⟨rfl, rfl, rfl, Nat.lt_succ_self _, Nat.lt_succ_self _, Nat.lt_succ_self _⟩ .zero (hardwareReset_busy s)

theorem raise_inv (f : CmdFault) {s : State} (h : s.MemoriesLegal) : (raise f s).Inv := by
  refine .of_idle h ?_ (raise_busy s f)
  rw [raise_status, faultedStatus, statusLegal_statusWord_iff]
  exact ⟨rfl, Bool.noConfusion, faultCodeOf_le_six f⟩

theorem finish_inv {s : State} (hmem : s.MemoriesLegal) (hfault : s.faultCode = 0#8) : (finish s).Inv := by
  refine .of_idle hmem ?_ (finish_busy s)
  rw [finish_status, completedStatus, statusLegal_statusWord_iff]
  have hfield : faultField s.status = 0#8 := hfault
  simp [hfield]

theorem acceptCommand_inv (w : CmdWord) {s : State} (h : s.Inv) : (acceptCommand w s).Inv := by
  rcases acceptCommand_cases s w with ⟨-, -, ha⟩ | ⟨hok, ha⟩ <;> rw [ha]
  · exact h
  · refine ⟨h.memoriesLegal, ?_, fun _ hfault => ?_⟩
    · rw [State.setStatus_status, statusLegal_statusWord_iff]
      exact ⟨rfl, Bool.noConfusion, h.faultCode_le⟩
    · have hf : s.faultCode ≠ 0#8 := by simpa [State.faultCode] using hfault
      exact hok.resolve_left hf

theorem performAccess_inv {a : Access} {s : State} (h : s.Inv) (hp : permitted a s = true) : (performAccess a s).Inv := by
  rcases performAccess_cases hp with ⟨w, ha⟩ | ⟨hk, hcmd⟩
  · rw [ha]
    exact acceptCommand_inv w h
  · exact h.of_keeps hk hcmd

/-- A command other than `SRST` is in progress only while no fault is recorded (60 R150). -/
theorem State.Inv.faultCode_eq_zero {s : State} {i : Instr} (h : s.Inv) (hb : s.busy = true) (hd : decode s.cmd = .ok i)
    (hi : i ≠ .srst) : s.faultCode = 0#8 := by
  obtain ⟨-, -, hsticky⟩ := h
  by_contra hf
  rw [hsticky hb hf, show decode (encode .srst) = .ok .srst by decide] at hd
  cases hd
  exact hi rfl

theorem CommandAnswer.inv {i : Instr} {s t : State} (ha : CommandAnswer i s t) (h : s.Inv) (hb : s.busy = true)
    (hd : decode s.cmd = .ok i) : t.Inv := by
  have hmem := h.memoriesLegal
  cases ha with
  | faulted f => exact raise_inv f hmem
  | lateFault f => exact raise_inv f (unspecifyScratch_memoriesLegal hmem)
  | finished hi hk => exact finish_inv (hk.memories hmem) (hk.faultCode.trans (h.faultCode_eq_zero hb hd hi))
  | softReset hi => exact .of_idle hmem .zero (softReset_busy s)

theorem EventAnswer.inv {s t : State} (ha : EventAnswer s t) (h : s.Inv) : t.Inv := by
  cases ha with
  | waits => exact h
  | illegal f => exact raise_inv f h.memoriesLegal
  | completes hd hb hc => exact hc.inv h hb hd
  | access hp => exact performAccess_inv h hp
  | reset => exact hardwareReset_inv s

/-- Settles O16: every answer of one event keeps the invariant, and which events are still to come is no part of it. -/
theorem stepKeepsInvariant : Obligations.StepKeepsInvariant := by
  intro s t hinv hstep
  obtain ⟨rest, ha⟩ := step_answers hstep
  exact ha.inv hinv

/-! The parameters. -/

theorem CommandAnswer.config {i : Instr} {s t : State} (ha : CommandAnswer i s t) : t.config = s.config := by
  cases ha with
  | faulted f => rfl
  | lateFault f => rfl
  | finished hi hk => exact hk.config
  | softReset hi => rfl

@[simp] theorem acceptCommand_config (w : CmdWord) (s : State) : (acceptCommand w s).config = s.config := by
  rcases acceptCommand_cases s w with ⟨-, -, ha⟩ | ⟨-, ha⟩ <;> rw [ha]
  rfl

theorem EventAnswer.config {s t : State} (ha : EventAnswer s t) : t.config = s.config := by
  cases ha with
  | waits => rfl
  | illegal f => rfl
  | completes hd hb hc => exact hc.config
  | access hp =>
    rcases performAccess_cases hp with ⟨w, ha⟩ | ⟨hk, -⟩
    · rw [ha, acceptCommand_config]
    · exact hk.config
  | reset => rfl

/-- Settles O17: no answer of one event changes the parameters, and register 9 reads one of them. -/
theorem parametersNeverChange : Obligations.ParametersNeverChange := by
  intro s t hstep
  obtain ⟨rest, ha⟩ := step_answers hstep
  have hconfig : t.config = s.config := ha.config
  exact ⟨hconfig, by rw [← hconfig]; rfl⟩

/-! Host writes of registers. -/

theorem hostAccess_writeReg {s : State} (hidle : s.busy = false) {i : Nat} (hi : i < 16) (v : BitVec 64) :
    hostAccess (.writeReg i v) s = .next (writeRegister s i v) := by
  simp [hostAccess, Access.wf, Access.index, Access.space, Space.size, hidle, hi, performAccess]

/-- A write of a register other than `CMD` leaves the value of every other register. -/
theorem registerValue_writeRegister_other {i j : Nat} (hi : i ≠ 0) (hj : j ≠ i) (s : State) (v : BitVec 64) :
    registerValue (writeRegister s i v) j = registerValue s j := by
  unfold writeRegister
  split
  · exact absurd rfl hi
  all_goals unfold registerValue; split <;> trivial

/-- An accepted word stands in `CMD`, and nothing else but `STATUS` changes (30 R57). -/
theorem acceptCommand_of_accepted {s : State} {w : CmdWord} (h : s.faultCode = 0#8 ∨ w = 0x00000001#32) :
    (acceptCommand w s).cmd = w ∧ ((acceptCommand w s).setCmd s.cmd).setStatus s.status = s := by
  rcases acceptCommand_cases s w with ⟨hf, hw, -⟩ | ⟨-, ha⟩
  · exact absurd h (not_or.mpr ⟨hf, hw⟩)
  · rw [ha]
    exact ⟨rfl, rfl⟩

/-- Settles O7: each register's write is one update of its own field, `CMD`'s the acceptance of the word. -/
theorem registerWritesKeepTheirBits : Obligations.RegisterWritesKeepTheirBits := by
  intro s v hidle
  have hlow : v.extractLsb' 0 32 = v.setWidth 32 := (BitVec.setWidth_eq_extractLsb' (by decide)).symm
  rw [hlow]
  have hanswer {i : Nat} (hi : i < 16) := hostAccess_writeReg hidle hi v
  refine ⟨fun i hi => ⟨_, hanswer (by omega), ?_, fun j hj => registerValue_writeRegister_other (by omega) hj s v⟩,
    fun i hi => ⟨_, hanswer (by omega), ?_, fun j hj => registerValue_writeRegister_other (by omega) hj s v⟩,
    ⟨_, hanswer (by decide), rfl, rfl⟩, ⟨_, hanswer (by decide), rfl, rfl⟩, ⟨_, hanswer (by decide), rfl, rfl⟩,
    ⟨_, hanswer (by decide), rfl, rfl⟩, ⟨_, hanswer (by decide), rfl, rfl⟩, ⟨_, hanswer (by decide), rfl, rfl⟩,
    fun haccepted => ?_⟩
  · rcases hi with rfl | rfl | rfl | rfl <;> rfl
  · rcases hi with rfl | rfl <;> rfl
  · obtain ⟨hcmd, hrest⟩ := acceptCommand_of_accepted haccepted
    exact ⟨_, hanswer (by decide), congrArg (BitVec.setWidth 64) hcmd, hrest⟩

end Sys2Proof.Machine
end

section
/-!
SUPPORT. The host port (20_memory.md R43 to R47, 70_reset_and_hazards.md R162): which accesses are answered, and what the
answered ones do. A read appends one reply, a write of an element is one write of its memory, and the step answers exactly when
its event is allowed.
-/

namespace Sys2Proof.Machine

/-! Which accesses are answered. -/

theorem permitted_iff {a : Access} {s : State} :
    permitted a s = true ↔ a.wf s.cap = true ∧ (s.busy = false ∨ a = .readReg 1) := by
  simp [permitted, isStatusRead]

theorem hostAccess_of_permitted {a : Access} {s : State} (h : permitted a s = true) :
    hostAccess a s = .next (performAccess a s) := by
  rcases hostAccess_cases a s with ⟨hw, -⟩ | ⟨-, hb, hs, -⟩ | ⟨-, hn⟩
  · simp [permitted, hw] at h
  · simp [permitted, hb, hs] at h
  · exact hn

theorem hostAccess_next_iff {a : Access} {s : State} : (∃ t, hostAccess a s = .next t) ↔ permitted a s = true := by
  refine ⟨?_, fun h => ⟨_, hostAccess_of_permitted h⟩⟩
  rintro ⟨t, ht⟩
  rcases hostAccess_cases a s with ⟨-, hf⟩ | ⟨-, -, -, hr⟩ | ⟨hp, -⟩
  · rw [hf] at ht; cases ht
  · rw [hr] at ht; cases ht
  · exact hp

/-- While the block is idle every access of an existing location is performed. -/
theorem hostAccess_of_idle {a : Access} {s : State} (hidle : s.busy = false) (hi : a.index < a.space.size s.cap) :
    hostAccess a s = .next (performAccess a s) :=
  hostAccess_of_permitted (permitted_iff.mpr ⟨decide_eq_true hi, .inl hidle⟩)

/-- Settles O10: of the three answers `hostAccess_cases` lists, the index, `BUSY` and the access each rule out all but one. -/
theorem accessesAnsweredExactlyWhenPermitted : Obligations.AccessesAnsweredExactlyWhenPermitted := by
  intro a s
  refine ⟨fun hw => ?_, fun hw => ?_, fun hw hb hne => ?_⟩
  · exact if_pos hw
  · rw [hostAccess_next_iff, permitted_iff, and_iff_right hw]
  · rcases hostAccess_cases a s with ⟨hw', -⟩ | ⟨-, -, -, hr⟩ | ⟨hp, -⟩
    · rw [hw] at hw'; cases hw'
    · exact ⟨_, hr⟩
    · obtain ⟨-, hidle | hread⟩ := permitted_iff.mp hp
      · rw [hb] at hidle; cases hidle
      · exact absurd hread hne

/-! The step. -/

/-- The engine's turn always answers: idle it waits, busy the command completes (30 R58, 70 R167). -/
theorem engineTurn_next (s : State) : ∃ t, engineTurn s = .next t := by
  cases hb : s.busy
  · exact ⟨s, engineTurn_of_idle hb⟩
  · rw [engineTurn_of_busy hb]
    rcases completeCommand_cases s with ⟨i, -, hc⟩ | ⟨e, -, hc⟩
    · obtain ⟨t, ht, -⟩ := exec_answers i s
      exact ⟨t, hc.trans ht⟩
    · exact ⟨_, hc⟩

theorem protocolKept_of_pending_nil {s : State} (h : s.pending = []) : s.protocolKept = true := by
  simp [State.protocolKept, h]

theorem protocolKept_of_pending_cons {s : State} {e : Event} {rest : List Event} (h : s.pending = e :: rest) :
    s.protocolKept = eventAllowed e s := by
  simp [State.protocolKept, h]

@[simp] theorem permitted_setPending (a : Access) (s : State) (es : List Event) :
    permitted a (s.setPending es) = permitted a s := rfl

/-- Settles O14: the engine's turn and a reset always answer, and an access answers exactly when it is permitted. -/
theorem stepAnswersExactlyUnderProtocol : Obligations.StepAnswersExactlyUnderProtocol := by
  intro s
  rcases step_cases s with ⟨hp, hs⟩ | ⟨rest, hp, hs⟩ | ⟨a, rest, hp, hs⟩ | ⟨rest, hp, hs⟩ <;> rw [hs]
  · exact iff_of_true (engineTurn_next s) (protocolKept_of_pending_nil hp)
  · exact iff_of_true (engineTurn_next _) (protocolKept_of_pending_cons hp)
  · rw [hostAccess_next_iff, permitted_setPending, protocolKept_of_pending_cons hp, eventAllowed]
  · exact iff_of_true ⟨_, rfl⟩ (protocolKept_of_pending_cons hp)

/-! What the answered accesses do. -/

/-- Settles O9: an element's write is one write of its memory, read back by `Mem.read_write_same` and `Mem.read_write_other`. -/
theorem elementWritesStoreThePattern : Obligations.ElementWritesStoreThePattern := by
  intro s i hidle hi
  refine ⟨fun v => ⟨s.setSmp (s.smp.write i v), hostAccess_of_idle hidle hi, ?_⟩,
    fun v => ⟨s.setRe (s.re.write i v), hostAccess_of_idle hidle hi, ?_⟩,
    fun v => ⟨s.setIm (s.im.write i v), hostAccess_of_idle hidle hi, ?_⟩⟩
  all_goals exact ⟨Mem.read_write_same _ _ i v, fun _ hj => Mem.read_write_other _ _ v hj, rfl⟩

/-- A reserved register reads 0 (10 R31). -/
theorem registerValue_of_reserved {i : Nat} (h : 10 ≤ i) (s : State) : registerValue s i = 0#64 := by
  obtain ⟨k, rfl⟩ := Nat.exists_eq_add_of_le' h
  rfl

/-- A write of `STATUS`, `MAXMAG`, `CAPLOG2` or a reserved register is ignored (10 R22, R28, R30, R31). -/
theorem writeRegister_of_ignored {i : Nat} (h : i = 1 ∨ i = 7 ∨ 9 ≤ i) (s : State) (v : BitVec 64) :
    writeRegister s i v = s := by
  rcases h with rfl | rfl | h
  · rfl
  · rfl
  · obtain ⟨k, rfl⟩ := Nat.exists_eq_add_of_le' h
    rfl

/-- Settles O8: a read appends its reply, and no arm of `writeRegister` takes the read-only and the reserved registers. -/
theorem readsAndIgnoredWritesChangeNothing : Obligations.ReadsAndIgnoredWritesChangeNothing := by
  intro s hidle
  refine ⟨fun i hi => hostAccess_of_idle hidle hi, fun i hi => ⟨hostAccess_of_idle hidle hi, hostAccess_of_idle hidle hi,
    hostAccess_of_idle hidle hi⟩, fun i v hi => ?_, fun i hi => registerValue_of_reserved hi s⟩
  rw [hostAccess_writeReg hidle (by omega), writeRegister_of_ignored (by omega)]

end Sys2Proof.Machine
end

section
/-!
SUPPORT. The decoder and the encoder (30_encoding.md R55, R56, R60): a word is its two fields, the opcode map gives each opcode
to one command, and so a word selects a command exactly when it is the command's word.
-/

namespace Sys2Proof

/-- The two fields are the whole word (30 R55). -/
theorem cmdWord_eq_of_fields {w v : CmdWord} (hrsv : rsvField w = rsvField v) (hopc : opcField w = opcField v) : w = v := by
  have hhigh := congrArg BitVec.toNat hrsv
  have hlow := congrArg BitVec.toNat hopc
  simp only [rsvField, opcField, BitVec.extractLsb'_toNat, Nat.shiftRight_eq_div_pow] at hhigh hlow
  apply BitVec.eq_of_toNat_eq
  omega

/-- The laws of the command words, for every command. -/
theorem wordShape (i : Instr) : Laws.WordShape.Statement i := by
  cases i with
  | nop => exact Laws.WordShape.nop
  | srst => exact Laws.WordShape.srst
  | toflt => exact Laws.WordShape.toflt
  | clrim => exact Laws.WordShape.clrim
  | zpad => exact Laws.WordShape.zpad
  | fftrzp => exact Laws.WordShape.fftrzp
  | fft => exact Laws.WordShape.fft
  | ifft => exact Laws.WordShape.ifft
  | magmax => exact Laws.WordShape.magmax
  | thrset => exact Laws.WordShape.thrset
  | gate => exact Laws.WordShape.gate
  | trunc => exact Laws.WordShape.trunc
  | quant => exact Laws.WordShape.quant
  | denoise => exact Laws.WordShape.denoise

@[simp] theorem rsvField_encode (i : Instr) : rsvField (encode i) = 0#24 := by
  obtain ⟨-, hrsv, -⟩ := wordShape i
  exact hrsv

@[simp] theorem lookupOpcode_encode (i : Instr) : lookupOpcode opcodeMap (opcField (encode i)) = some i := by
  obtain ⟨-, -, hlookup⟩ := wordShape i
  exact hlookup

/-- What a lookup finds stands in the map. -/
theorem mem_of_lookupOpcode {m : List (BitVec 8 × Instr)} {opc : BitVec 8} {i : Instr} (h : lookupOpcode m opc = some i) :
    (opc, i) ∈ m := by
  induction m with
  | nil => cases h
  | cons p rest ih =>
    rw [lookupOpcode] at h
    split at h
    · next heq =>
      cases heq
      cases h
      exact List.mem_cons_self
    · exact List.mem_cons_of_mem _ (ih h)

theorem opcField_encode_of_mem : ∀ p ∈ opcodeMap, p.1 = opcField (encode p.2) := by decide

/-- Each command stands in the opcode map once, under the opcode of its word. -/
theorem lookupOpcode_opcodeMap_iff {opc : BitVec 8} {i : Instr} :
    lookupOpcode opcodeMap opc = some i ↔ opc = opcField (encode i) := by
  refine ⟨fun h => opcField_encode_of_mem (opc, i) (mem_of_lookupOpcode h), ?_⟩
  rintro rfl
  exact lookupOpcode_encode i

theorem decode_eq_ok_iff_lookup {w : CmdWord} {i : Instr} :
    decode w = .ok i ↔ rsvField w = 0#24 ∧ lookupOpcode opcodeMap (opcField w) = some i := by
  unfold decode
  split
  · next hrsv => simp [hrsv]
  · next hrsv => cases hl : lookupOpcode opcodeMap (opcField w) <;> simp [not_not.mp hrsv]

/-- A word selects a command exactly when `RSV = 0` and `OPC` is the command's (30 R56). -/
theorem decode_eq_ok_iff_fields {w : CmdWord} {i : Instr} :
    decode w = .ok i ↔ rsvField w = 0#24 ∧ opcField w = opcField (encode i) := by
  rw [decode_eq_ok_iff_lookup, lookupOpcode_opcodeMap_iff]

@[simp] theorem decode_encode (i : Instr) : decode (encode i) = .ok i :=
  decode_eq_ok_iff_fields.mpr ⟨rsvField_encode i, rfl⟩

/-- A word selects a command exactly when it is the command's word (30 R56). -/
theorem decode_eq_ok_iff {w : CmdWord} {i : Instr} : decode w = .ok i ↔ w = encode i := by
  refine ⟨fun h => ?_, ?_⟩
  · obtain ⟨hrsv, hopc⟩ := decode_eq_ok_iff_fields.mp h
    exact cmdWord_eq_of_fields (hrsv.trans (rsvField_encode i).symm) hopc
  · rintro rfl
    exact decode_encode i

/-- Settles O1: a word is its two fields, and the opcode map gives each opcode to the one command whose word has it. -/
theorem wordsSelectCommandsExactly : Obligations.WordsSelectCommandsExactly :=
  ⟨fun _ _ => decode_eq_ok_iff, fun _ _ => decode_eq_ok_iff_fields, rfl⟩

/-- Settles O2: the six legal words are words of their commands; of the other two the decoder names what is reserved. -/
theorem sampleWordsDecode : Obligations.SampleWordsDecode :=
  ⟨decode_encode .srst, decode_encode .toflt, decode_encode .fft, decode_encode .gate, decode_encode .quant,
    decode_encode .denoise, rfl, rfl⟩

/-- A command word numbered by its own bits is itself. -/
@[simp] theorem tableWord_toNat (w : CmdWord) : tableWord 32 w.toNat = w := by
  rw [tableWord, Nat.mod_eq_of_lt w.isLt, BitVec.ofNat_toNat, BitVec.setWidth_eq]

end Sys2Proof
end

section
/-!
SUPPORT. From the host's write of `CMD` to the completion of the command (30_encoding.md R57, R58): what acceptance makes of the
state, which step runs the accepted command, and with what outcome in `STATUS` it completes.
-/

namespace Sys2Proof.Machine

/-! Completion. -/

/-- The outcome of a command that ends in `t`: no longer busy, and done with `FAULT` kept, or faulted, or `STATUS` reset. -/
theorem CommandAnswer.outcome {i : Instr} {s t : State} (ha : CommandAnswer i s t) :
    t.busy = false ∧
      ((t.done = true ∧ t.faultCode = s.faultCode) ∨ (t.done = false ∧ t.faultCode ≠ 0#8) ∨ (i = .srst ∧ t.status = 0#16)) := by
  cases ha with
  | faulted f => exact ⟨raise_busy s f, .inr (.inl ⟨raise_done s f, by simp [faultCodeOf_ne_zero]⟩)⟩
  | lateFault f => exact ⟨raise_busy _ f, .inr (.inl ⟨raise_done _ f, by simp [faultCodeOf_ne_zero]⟩)⟩
  | finished hi hk => exact ⟨finish_busy _, .inl ⟨finish_done _, (finish_faultCode _).trans hk.faultCode⟩⟩
  | softReset hi => exact ⟨softReset_busy s, .inr (.inr ⟨hi, rfl⟩)⟩

/-- Settles O5: each of the answers a command can give has one of the three outcomes. -/
theorem everyCommandCompletes : Obligations.EveryCommandCompletes := by
  intro i s
  obtain ⟨t, ht, ha⟩ := exec_answers i s
  exact ⟨t, ht, ha.outcome⟩

/-! Acceptance. -/

theorem hostAccess_writeReg_of_busy {s : State} (hbusy : s.busy = true) {i : Nat} (hi : i < 16) (v : BitVec 64) :
    hostAccess (.writeReg i v) s = .refused (busyRefusal (.writeReg i v)) := by
  simp [hostAccess, Access.wf, Access.index, Access.space, Space.size, hbusy, hi, isStatusRead]

theorem acceptCommand_eq_of_ignored {s : State} {w : CmdWord} (hfault : s.faultCode ≠ 0#8) (hw : w ≠ 0x00000001#32) :
    acceptCommand w s = s := if_pos ⟨hfault, hw⟩

theorem acceptCommand_eq_of_accepted {s : State} {w : CmdWord} (h : s.faultCode = 0#8 ∨ w = 0x00000001#32) :
    acceptCommand w s = (s.setCmd w).setStatus (statusWord true false s.faultCode) := by
  rcases acceptCommand_cases s w with ⟨hf, hw, -⟩ | ⟨-, ha⟩
  · exact absurd h (not_or.mpr ⟨hf, hw⟩)
  · exact ha

/-- Settles O6: `BUSY` decides between refusal and `acceptCommand`, and the recorded fault and the word whether that ignores
the write or starts the command. -/
theorem commandWriteIsAcceptance : Obligations.CommandWriteIsAcceptance := by
  intro s v
  have hlow : v.extractLsb' 0 32 = v.setWidth 32 := (BitVec.setWidth_eq_extractLsb' (by decide)).symm
  rw [hlow]
  refine ⟨fun hbusy => hostAccess_writeReg_of_busy hbusy (by decide) v, fun hidle hfault hw => ?_, fun hidle haccepted => ?_⟩
  · rw [hostAccess_writeReg hidle (by decide), writeRegister, acceptCommand_eq_of_ignored hfault hw]
  · refine ⟨(s.setCmd (v.setWidth 32)).setStatus (statusWord true false s.faultCode), ?_, rfl, ?_, ?_, ?_, rfl, ?_⟩
    · rw [hostAccess_writeReg hidle (by decide), writeRegister, acceptCommand_eq_of_accepted haccepted]
    · exact busyBit_statusWord ..
    · exact doneBit_statusWord ..
    · exact faultField_statusWord ..
    · exact engineTurn_of_busy (busyBit_statusWord ..)

/-! The step that runs the accepted command. -/

theorem step_of_pending_nil {s : State} (h : s.pending = []) : step s = engineTurn s := by simp [step, h]

theorem step_of_pending_engine {s : State} {rest : List Event} (h : s.pending = .engine :: rest) :
    step s = engineTurn (s.setPending rest) := by
  simp [step, h, takeEvent]

theorem engineTurn_of_decode {s : State} {i : Instr} (hbusy : s.busy = true) (hd : decode s.cmd = .ok i) :
    engineTurn s = exec i s := by
  rw [engineTurn_of_busy hbusy, completeCommand, hd]

/-- A placed command word is what acceptance makes of the state, with the engine's turn in front (log 2). -/
theorem withFetchWord_encode (s : State) (i : Instr) :
    s.withFetchWord 32 (encode i).toNat =
      ((s.setCmd (encode i)).setStatus (statusWord true false s.faultCode)).setPending (.engine :: s.pending) := by
  rw [State.withFetchWord, tableWord_toNat]
  rfl

/-- Settles O4: with no event left and with the engine's turn next the step is `engineTurn`, which runs the decoded command when
busy and waits when idle. -/
theorem stepRunsAcceptedCommand : Obligations.StepRunsAcceptedCommand := by
  refine ⟨fun s i hbusy hd => ⟨fun hp => ?_, fun rest hp => ?_⟩, fun s hidle => ⟨fun hp => ?_, fun rest hp => ?_⟩,
    fun s i => ?_⟩
  · rw [step_of_pending_nil hp, engineTurn_of_decode hbusy hd]
  · rw [step_of_pending_engine hp]
    exact engineTurn_of_decode hbusy hd
  · rw [step_of_pending_nil hp, engineTurn_of_idle hidle]
  · rw [step_of_pending_engine hp]
    exact engineTurn_of_idle hidle
  · rw [withFetchWord_encode, step_of_pending_engine rfl]
    exact engineTurn_of_decode (busyBit_statusWord ..) (decode_encode i)

end Sys2Proof.Machine
end

section
/-!
SUPPORT. Rounding to nearest (40_numerics.md R67, R76, R80): the integers nearest to a fraction, a magnitude as a significand
times a power of two, and `rn` as the significand nearest to its argument. The statements about `rn`, `i2f` and `roundInt`
follow from these.
-/

namespace Sys2Proof.Machine

/-! The integers nearest to `n / d`. -/

/-- `nearestEven` is at most half away, and even when it is exactly half away. -/
theorem nearestEven_within_half (n : Nat) {d : Nat} (hd : 0 < d) :
    2 * n ≤ 2 * (nearestEven n d * d) + d ∧ 2 * (nearestEven n d * d) ≤ 2 * n + d ∧
      (2 * n = 2 * (nearestEven n d * d) + d ∨ 2 * (nearestEven n d * d) = 2 * n + d → nearestEven n d % 2 = 0) := by
  have hn := Nat.div_add_mod' n d
  have hm := Nat.mod_lt n hd
  have hup : (n / d + 1) * d = n / d * d + d := Nat.succ_mul _ _
  unfold nearestEven
  split
  · omega
  · split
    · rw [hup]; omega
    · rcases Nat.mod_two_eq_zero_or_one (n / d) with hq | hq
      · rw [hq, Nat.add_zero]; omega
      · rw [hq, hup]; omega

/-- `nearestUp` is at most half away, and above when it is exactly half away. -/
theorem nearestUp_within_half (n : Nat) {d : Nat} (hd : 0 < d) :
    2 * n < 2 * (nearestUp n d * d) + d ∧ 2 * (nearestUp n d * d) ≤ 2 * n + d := by
  have hn := Nat.div_add_mod' (2 * n + d) (2 * d)
  have hm := Nat.mod_lt (2 * n + d) (Nat.mul_pos Nat.two_pos hd)
  rw [Nat.mul_left_comm] at hn
  rw [nearestUp]
  omega

theorem mul_add_le_mul_of_lt {k r : Nat} (d : Nat) (h : k < r) : k * d + d ≤ r * d :=
  Nat.succ_mul k d ▸ Nat.mul_le_mul_right d h

/-- No integer is nearer than `nearestEven`, and it is even when another is equally near. -/
theorem nearestEven_nearest (n : Nat) {d : Nat} (hd : 0 < d) (k : Nat) :
    ((n : Int) - nearestEven n d * d).natAbs ≤ ((n : Int) - k * d).natAbs ∧
      (((n : Int) - nearestEven n d * d).natAbs = ((n : Int) - k * d).natAbs → k ≠ nearestEven n d →
        nearestEven n d % 2 = 0) := by
  have hnear := nearestEven_within_half n hd
  generalize nearestEven n d = r at *
  simp only [← Int.natCast_mul]
  rcases Nat.lt_trichotomy k r with h | rfl | h
  · have := mul_add_le_mul_of_lt d h
    omega
  · omega
  · have := mul_add_le_mul_of_lt d h
    omega

theorem nearestEven_le_of_lt {n d k : Nat} (hd : 0 < d) (h : 2 * n < 2 * (k * d) + d) : nearestEven n d ≤ k := by
  have hnear := nearestEven_within_half n hd
  by_contra hk
  have := mul_add_le_mul_of_lt d (not_le.mp hk)
  omega

/-- Half below an even integer still rounds to it. -/
theorem le_nearestEven_of_le {n d k : Nat} (hd : 0 < d) (hk : k % 2 = 0) (h : 2 * (k * d) ≤ 2 * n + d) :
    k ≤ nearestEven n d := by
  have hnear := nearestEven_within_half n hd
  by_contra hlt
  have := mul_add_le_mul_of_lt d (not_le.mp hlt)
  have heven : nearestEven n d % 2 = 0 := by omega
  have := Nat.mul_le_mul_right d (show nearestEven n d + 2 ≤ k by omega)
  rw [Nat.add_mul] at this
  omega

theorem nearestEven_mul_of_dvd {n d : Nat} (hd : 0 < d) (h : d ∣ n) : nearestEven n d * d = n := by
  obtain ⟨k, rfl⟩ := h
  simp [nearestEven, hd, Nat.mul_comm]

/-! Magnitudes as significand and power of two (40 R66). -/

/-- The magnitude bits `s * 2^52 + r`, with `r` the significand and `2^s` the spacing, stand for `r * 2^s` units. A
significand of `2^53` carries into the exponent. -/
theorem units_signed (neg : Bool) {s r : Nat} (h : s * 2 ^ 52 + r < 2 ^ 63) (hr : r ≤ 2 ^ 53) (hs : s = 0 ∨ 2 ^ 52 ≤ r) :
    units (signed neg (s * 2 ^ 52 + r)) = r * 2 ^ s := by
  unfold units
  rw [expField_signed neg h, fracField_signed neg h]
  by_cases hsub : r < 2 ^ 52
  · obtain rfl : s = 0 := by omega
    rw [if_pos (by omega), Nat.pow_zero]
    omega
  by_cases hnorm : r < 2 ^ 53
  · rw [if_neg (by omega), show (s * 2 ^ 52 + r) / 2 ^ 52 - 1 = s by omega]
    congr 1
    omega
  · obtain rfl : r = 2 ^ 53 := by omega
    rw [show (s * 2 ^ 52 + 2 ^ 53) / 2 ^ 52 = s + 2 by omega, show (s * 2 ^ 52 + 2 ^ 53) % 2 ^ 52 = 0 by omega,
      if_neg (by omega), Nat.add_sub_cancel (m := 1), Nat.pow_succ]
    omega

theorem isFinite_signed (neg : Bool) {mag : Nat} (h : mag < 2047 * 2 ^ 52) : isFinite (signed neg mag) = true := by
  rw [isFinite, expField_signed neg (by omega), decide_eq_true_eq]
  omega

theorem units_of_expField_ne_zero {b : Binary64} (h : expField b ≠ 0) :
    units b = (2 ^ 52 + fracField b) * 2 ^ (expField b - 1) := if_neg h

theorem units_of_expField_eq_zero {b : Binary64} (h : expField b = 0) : units b = fracField b := if_pos h

theorem units_lt_two_pow (b : Binary64) : units b < 2 ^ (52 + expField b) := by
  have hf := fracField_lt b
  by_cases he : expField b = 0
  · rwa [units_of_expField_eq_zero he, he]
  · rw [units_of_expField_ne_zero he, show 52 + expField b = 53 + (expField b - 1) by omega, Nat.pow_add]
    exact Nat.mul_lt_mul_of_pos_right (by omega) (Nat.two_pow_pos _)

/-- From `2^(52 + m)` units on, every value is a multiple of `2^m` units. -/
theorem two_pow_dvd_units {b : Binary64} {m : Nat} (h : 2 ^ (52 + m) ≤ units b) : 2 ^ m ∣ units b := by
  have hm := (Nat.pow_lt_pow_iff_right (by decide)).mp (h.trans_lt (units_lt_two_pow b))
  rw [units_of_expField_ne_zero (by omega)]
  exact Dvd.dvd.mul_left (Nat.pow_dvd_pow 2 (by omega)) _

/-- A greater exponent is a greater magnitude, the exponent of the infinities included (40 R66). -/
theorem units_lt_units {a b : Binary64} (h : expField a < expField b) : units a < units b := by
  rw [units_of_expField_ne_zero (b := b) (by omega)]
  calc units a < 2 ^ (52 + expField a) := units_lt_two_pow a
    _ ≤ 2 ^ (52 + (expField b - 1)) := Nat.pow_le_pow_right Nat.two_pos (by omega)
    _ ≤ (2 ^ 52 + fracField b) * 2 ^ (expField b - 1) := by
      rw [Nat.pow_add]
      exact Nat.mul_le_mul_right _ (Nat.le_add_right ..)

/-! `rn` as significand and spacing. -/

theorem lt_two_pow_spacing (q : Nat) : q < 2 ^ (53 + spacing q) :=
  q.lt_log2_self.trans_le (Nat.pow_le_pow_right Nat.two_pos (by unfold spacing; omega))

theorem two_pow_spacing_le {q : Nat} (h : spacing q ≠ 0) : 2 ^ (52 + spacing q) ≤ q := by
  unfold spacing at h ⊢
  rw [show 52 + (q.log2 - 52) = q.log2 by omega]
  exact Nat.log2_self_le (by rintro rfl; simp at h)

theorem spacing_le {q k : Nat} (h : q < 2 ^ (53 + k)) : spacing q ≤ k := by
  by_contra hk
  have := (two_pow_spacing_le (q := q) (by omega)).trans_lt h
  have := (Nat.pow_lt_pow_iff_right (by decide)).mp this
  omega

theorem lt_spacing {q k : Nat} (h : 2 ^ (53 + k) ≤ q) : k < spacing q := by
  have := (Nat.pow_lt_pow_iff_right (by decide)).mp (h.trans_lt (lt_two_pow_spacing q))
  omega

theorem mul_two_pow_succ (d k : Nat) : d * 2 ^ (k + 1) = 2 * (2 ^ k * d) := by
  rw [Nat.pow_succ]; ring

theorem two_pow_add_mul (j k d : Nat) : 2 ^ (j + k) * d = 2 ^ j * (d * 2 ^ k) := by
  rw [Nat.pow_add, Nat.mul_assoc, Nat.mul_comm d]

/-- Half a unit past the largest finite value, `(2^54 - 1) * 2^970` in units of `2^-1074` (40 R67). -/
def overflowUnits : Nat := (2 ^ 54 - 1) * 2 ^ 2044

theorem overflowUnits_mul (d : Nat) : overflowUnits * d = (2 ^ 54 - 1) * (2 ^ 2044 * d) := Nat.mul_assoc ..

theorem lt_overflowUnits {n d k : Nat} (hk : k ≤ 53 + 2044) (h : n < 2 ^ k * d) : n < overflowUnits * d :=
  calc n < 2 ^ k * d := h
    _ ≤ 2 ^ (53 + 2044) * d := Nat.mul_le_mul_right d (pow_le_pow_right₀ one_le_two hk)
    _ = 2 ^ 53 * (2 ^ 2044 * d) := by rw [two_pow_add_mul 53 2044 d, Nat.mul_comm d]
    _ ≤ (2 ^ 54 - 1) * (2 ^ 2044 * d) := Nat.mul_le_mul_right _ (by decide)
    _ = overflowUnits * d := (overflowUnits_mul d).symm

/-- The significand of `RN(x)`, `x` being `n / d` units: the number of spacings nearest to `x`. -/
def significand (n d : Nat) : Nat := nearestEven n (d * 2 ^ spacing (n / d))

theorem rnMag_eq (n d : Nat) : rnMag n d = min (spacing (n / d) * 2 ^ 52 + significand n d) (2047 * 2 ^ 52) := rfl

section
variable {n d : Nat} (hd : 0 < d)
include hd

theorem significand_le : significand n d ≤ 2 ^ 53 := by
  have hlt := (Nat.div_lt_iff_lt_mul hd).mp (lt_two_pow_spacing (n / d))
  rw [two_pow_add_mul] at hlt
  exact nearestEven_le_of_lt (Nat.mul_pos hd (Nat.two_pow_pos _)) (by omega)

theorem two_pow_mul_le (hs : spacing (n / d) ≠ 0) : 2 ^ 52 * (d * 2 ^ spacing (n / d)) ≤ n := by
  have := (Nat.le_div_iff_mul_le hd).mp (two_pow_spacing_le hs)
  rwa [two_pow_add_mul] at this

theorem le_significand (hs : spacing (n / d) ≠ 0) : 2 ^ 52 ≤ significand n d :=
  le_nearestEven_of_le (Nat.mul_pos hd (Nat.two_pow_pos _)) (by decide) (by have := two_pow_mul_le hd hs; omega)

/-- Below half a unit past the largest finite value the rounded magnitude is not cut off. -/
theorem rnMag_of_lt (h : n < overflowUnits * d) :
    rnMag n d = spacing (n / d) * 2 ^ 52 + significand n d ∧ rnMag n d < 2047 * 2 ^ 52 := by
  rw [overflowUnits_mul] at h
  have hs : spacing (n / d) ≤ 2045 := spacing_le <| (Nat.div_lt_iff_lt_mul hd).mpr <| by
    rw [show 53 + 2045 = 54 + 2044 from rfl, two_pow_add_mul, Nat.mul_comm d]
    exact h.trans_le (Nat.mul_le_mul_right (2 ^ 2044 * d) (show 2 ^ 54 - 1 ≤ 2 ^ 54 by decide))
  have hfit : spacing (n / d) * 2 ^ 52 + significand n d < 2047 * 2 ^ 52 := by
    rcases hs.lt_or_eq with hlt | heq
    · have := significand_le hd (n := n)
      omega
    · have : significand n d ≤ 2 ^ 53 - 1 := nearestEven_le_of_lt (Nat.mul_pos hd (Nat.two_pow_pos _)) <| by
        rw [heq, mul_two_pow_succ d 2044]
        generalize 2 ^ 2044 * d = x at *
        omega
      omega
  rw [rnMag_eq, Nat.min_eq_left hfit.le]
  exact ⟨rfl, hfit⟩

/-- From half a unit past the largest finite value on the rounded magnitude is cut off at the infinity. -/
theorem rnMag_of_le (h : overflowUnits * d ≤ n) : rnMag n d = 2047 * 2 ^ 52 := by
  have hq : 2 ^ (53 + 2044) ≤ n / d := (Nat.le_div_iff_mul_le hd).mpr <| by
    rw [overflowUnits_mul] at h
    rw [two_pow_add_mul, Nat.mul_comm d]
    exact (Nat.mul_le_mul_right (2 ^ 2044 * d) (show 2 ^ 53 ≤ 2 ^ 54 - 1 by decide)).trans h
  have hs := lt_spacing hq
  rw [rnMag_eq]
  apply Nat.min_eq_right
  by_cases heq : spacing (n / d) = 2045
  · have : 2 ^ 53 ≤ significand n d := le_nearestEven_of_le (Nat.mul_pos hd (Nat.two_pow_pos _)) (by decide) <| by
      rw [overflowUnits_mul] at h
      rw [heq, mul_two_pow_succ d 2044]
      generalize 2 ^ 2044 * d = x at *
      omega
    omega
  · have := le_significand hd (n := n) (by omega)
    omega

/-- The value of a rounded magnitude that is not cut off. -/
theorem units_rn (neg : Bool) (h : n < overflowUnits * d) :
    units (rn neg n d) = significand n d * 2 ^ spacing (n / d) := by
  obtain ⟨hmag, -⟩ := rnMag_of_lt hd h
  have hlt := rnMag_lt n d
  rw [rn, hmag]
  rw [hmag] at hlt
  exact units_signed neg hlt (significand_le hd) (Classical.or_iff_not_imp_left.mpr (le_significand hd))

theorem isFinite_rn (neg : Bool) (h : n < overflowUnits * d) : isFinite (rn neg n d) = true :=
  isFinite_signed neg (rnMag_of_lt hd h).2

/-- A number whose spacing divides it is rounded to itself. -/
theorem units_rn_of_dvd (neg : Bool) (h : n < overflowUnits * d) (hdvd : d * 2 ^ spacing (n / d) ∣ n) :
    units (rn neg n d) * d = n := by
  rw [units_rn hd neg h, Nat.mul_assoc, Nat.mul_comm _ d]
  exact nearestEven_mul_of_dvd (Nat.mul_pos hd (Nat.two_pow_pos _)) hdvd

/-- No value is nearer to `n / d` units than `rn`, and its fraction is even when a different one is equally near: a multiple of
the spacing is no nearer, since the significand is nearest, and any other value lies below the multiple `2^52` of the spacing,
which is itself not above `n / d`. -/
theorem rn_nearest (neg : Bool) (h : n < overflowUnits * d) (b : Binary64) :
    ((n : Int) - units (rn neg n d) * d).natAbs ≤ ((n : Int) - units b * d).natAbs ∧
      (((n : Int) - units (rn neg n d) * d).natAbs = ((n : Int) - units b * d).natAbs →
        units b ≠ units (rn neg n d) → fracField (rn neg n d) % 2 = 0) := by
  have hD : 0 < d * 2 ^ spacing (n / d) := Nat.mul_pos hd (Nat.two_pow_pos _)
  have hscale (k : Nat) : ((k * 2 ^ spacing (n / d) : Nat) : Int) * d = (k : Int) * (d * 2 ^ spacing (n / d) : Nat) := by
    push_cast; ring
  have hfrac : fracField (rn neg n d) % 2 = significand n d % 2 := by
    rw [rn, fracField_signed neg (rnMag_lt n d), (rnMag_of_lt hd h).1]
    omega
  rw [units_rn hd neg h, hscale, hfrac]
  by_cases hdvd : 2 ^ spacing (n / d) ∣ units b
  · obtain ⟨k, hk⟩ := hdvd
    rw [hk, Nat.mul_comm (2 ^ _) k, hscale]
    obtain ⟨hle, htie⟩ := nearestEven_nearest n hD k
    exact ⟨hle, fun heq hne => htie heq (by rintro rfl; exact hne rfl)⟩
  · have hs : spacing (n / d) ≠ 0 := fun h0 => hdvd (by simp [h0])
    have hb : units b < 2 ^ (52 + spacing (n / d)) := not_le.mp fun hle => hdvd (two_pow_dvd_units hle)
    have hbd := Nat.mul_lt_mul_of_pos_right hb hd
    rw [two_pow_add_mul] at hbd
    have hn := two_pow_mul_le hd hs
    obtain ⟨hle, -⟩ := nearestEven_nearest n hD (2 ^ 52)
    rw [← significand] at hle
    simp only [← Int.natCast_mul] at hle ⊢
    omega

end

/-- Settles O19: the sign is the one given, the magnitude is cut off exactly from the threshold on, and below it is the
significand nearest to the argument. -/
theorem roundingIsToNearestEven : Obligations.RoundingIsToNearestEven := by
  intro neg n d hd
  refine ⟨isNeg_rn neg n d, fun h => ?_, fun h => ?_⟩
  · rw [rn, rnMag_of_le hd ((congrArg (· * d) (by decide +kernel)).trans_le h), infinity]
  · have hlt : n < overflowUnits * d := h.trans_eq (congrArg (· * d) (by decide +kernel))
    exact ⟨isFinite_rn hd neg hlt, fun b _ => rn_nearest hd neg hlt b⟩

theorem value_rn (neg : Bool) (n d : Nat) :
    value (rn neg n d) = if neg then -(units (rn neg n d) : Int) else (units (rn neg n d) : Int) := by
  rw [value, isNeg_rn]

/-! Integers (40 R76, R80). -/

/-- A significand of at most 53 bits, scaled by a power of two, is rounded to itself. -/
theorem units_rn_scaled (neg : Bool) {m k : Nat} (hm : m < 2 ^ 53) (hk : k ≤ 2044) :
    isFinite (rn neg (m * 2 ^ k) 1) = true ∧ units (rn neg (m * 2 ^ k) 1) = m * 2 ^ k := by
  have hlt : m * 2 ^ k < 2 ^ (53 + k) := by
    rw [Nat.pow_add]
    exact Nat.mul_lt_mul_of_pos_right hm (Nat.two_pow_pos k)
  have hmax := lt_overflowUnits (d := 1) (Nat.add_le_add_left hk 53) (hlt.trans_eq (Nat.mul_one _).symm)
  refine ⟨isFinite_rn Nat.one_pos neg hmax, ?_⟩
  rw [← Nat.mul_one (units _)]
  refine units_rn_of_dvd Nat.one_pos neg hmax ?_
  rw [Nat.one_mul, Nat.div_one]
  exact Dvd.dvd.mul_left (Nat.pow_dvd_pow 2 (spacing_le hlt)) m

/-- Settles O26: the units of an integer of at most 32 bits are a multiple of their spacing. -/
theorem integersConvertExactly : Obligations.IntegersConvertExactly := by
  intro v hlo hhi
  obtain ⟨hfinite, hunits⟩ := units_rn_scaled (decide (v < 0)) (m := v.natAbs) (k := 1074) (by omega) (by decide)
  refine ⟨hfinite, ?_, ?_⟩
  · rw [i2f, value_rn, hunits, Nat.cast_mul, Nat.cast_pow, Nat.cast_ofNat, Int.natCast_natAbs]
    by_cases hv : v < 0
    · rw [if_pos (by simpa using hv), abs_of_neg hv, Int.neg_mul, Int.neg_neg]
    · rw [if_neg (by simpa using hv), abs_of_nonneg (not_lt.mp hv)]
  · rintro rfl
    decide +kernel

theorem natAbs_signed_mul (neg : Bool) (r p : Nat) : ((if neg then -(r : Int) else r) * (p : Int)).natAbs = r * p := by
  split <;> simp [Int.natAbs_mul]

/-- Signs do not matter to the distance of an integer from a value of the same sign. -/
theorem natAbs_sub_value (a : Binary64) (r p : Nat) :
    ((if isNeg a then -(r : Int) else r) * (p : Int) - value a).natAbs = ((r * p : Nat) - units a : Int).natAbs := by
  unfold value
  split
  · rw [Int.neg_mul, Int.natCast_mul]; omega
  · rw [Int.natCast_mul]

theorem two_mul_distance_nearestUp (u : Nat) {p : Nat} (hp : 0 < p) :
    2 * ((nearestUp u p * p : Nat) - u : Int).natAbs ≤ p ∧
      (2 * ((nearestUp u p * p : Nat) - u : Int).natAbs = p → u < nearestUp u p * p) := by
  have := nearestUp_within_half u hp
  omega

theorem two_mul_distance_nearestEven (neg : Bool) (u : Nat) {p : Nat} (hp : 0 < p) :
    2 * ((nearestEven u p * p : Nat) - u : Int).natAbs ≤ p ∧
      (2 * ((nearestEven u p * p : Nat) - u : Int).natAbs = p →
        (if neg then -(nearestEven u p : Int) else nearestEven u p) % 2 = 0) := by
  have := nearestEven_within_half u hp
  split <;> omega

/-- Settles O27: `roundInt` is the sign times an integer nearest to the magnitude. -/
theorem roundIntIsNearest : Obligations.RoundIntIsNearest := by
  intro ties a _
  have hpos : 0 < 2 ^ 1074 := pow_pos two_pos 1074
  have hcast : (2 : Int) ^ 1074 = (2 ^ 1074 : Nat) := by rw [Nat.cast_pow]; rfl
  cases ties with
  | away =>
    simp only [roundInt, hcast, natAbs_sub_value, natAbs_value, natAbs_signed_mul]
    exact two_mul_distance_nearestUp (units a) hpos
  | even =>
    simp only [roundInt, hcast, natAbs_sub_value]
    exact two_mul_distance_nearestEven (isNeg a) (units a) hpos

end Sys2Proof.Machine
end

section
/-!
SUPPORT. The results of the operations by the classes of their operands (40_numerics.md R68 to R75): one equation per row of the
rules, from which the statements about them follow.
-/

namespace Sys2Proof.Machine

/-! Infinities and zeros are determined by their sign; every pattern is a NaN, an infinity or finite. -/

theorem eq_of_fields {a b : Binary64} (hneg : isNeg a = isNeg b) (hexp : expField a = expField b)
    (hfrac : fracField a = fracField b) : a = b := by
  apply BitVec.eq_of_toNat_eq
  rw [toNat_eq_fields a, toNat_eq_fields b, hneg, hexp, hfrac]

theorem isInf_iff {a : Binary64} : isInf a = true ↔ expField a = 2047 ∧ fracField a = 0 := by simp [isInf]
theorem isZero_iff {a : Binary64} : isZero a = true ↔ expField a = 0 ∧ fracField a = 0 := by simp [isZero]

@[simp] theorem isNeg_infinity (neg : Bool) : isNeg (infinity neg) = neg := isNeg_signed neg (by decide)
@[simp] theorem isInf_infinity (neg : Bool) : isInf (infinity neg) = true := by
  rw [isInf_iff, infinity, expField_signed neg (by decide), fracField_signed neg (by decide)]
  decide
@[simp] theorem isNeg_zero (neg : Bool) : isNeg (zero neg) = neg := isNeg_signed neg (by decide)
@[simp] theorem isZero_zero (neg : Bool) : isZero (zero neg) = true := by
  rw [isZero_iff, zero, expField_signed neg (by decide), fracField_signed neg (by decide)]
  decide

theorem eq_infinity_of_isInf {a : Binary64} (h : isInf a = true) : a = infinity (isNeg a) := by
  obtain ⟨hexp, hfrac⟩ := isInf_iff.mp h
  obtain ⟨hexp', hfrac'⟩ := isInf_iff.mp (isInf_infinity (isNeg a))
  exact eq_of_fields (isNeg_infinity _).symm (hexp.trans hexp'.symm) (hfrac.trans hfrac'.symm)

theorem eq_zero_of_isZero {a : Binary64} (h : isZero a = true) : a = zero (isNeg a) := by
  obtain ⟨hexp, hfrac⟩ := isZero_iff.mp h
  obtain ⟨hexp', hfrac'⟩ := isZero_iff.mp (isZero_zero (isNeg a))
  exact eq_of_fields (isNeg_zero _).symm (hexp.trans hexp'.symm) (hfrac.trans hfrac'.symm)

theorem eq_NZERO_iff {a : Binary64} : a = NZERO ↔ isZero a = true ∧ isNeg a = true := by
  constructor
  · rintro rfl; decide
  · rintro ⟨hzero, hneg⟩
    rw [eq_zero_of_isZero hzero, hneg]
    rfl

theorem isFinite_of_not {a : Binary64} (hnan : isNaN a = false) (hinf : isInf a = false) : isFinite a = true := by
  simp_all [isNaN, isInf, isFinite]

/-! Signs and values. -/

theorem decide_mul_value_neg {a b : Binary64} (ha : isZero a = false) (hb : isZero b = false) :
    decide (value a * value b < 0) = (isNeg a != isNeg b) := by
  have hu := Nat.pos_of_ne_zero (mt (units_eq_zero_iff a).mp (by simp [ha]))
  have hv := Nat.pos_of_ne_zero (mt (units_eq_zero_iff b).mp (by simp [hb]))
  have hpos : (0 : Int) < units a * units b := by positivity
  unfold value
  cases isNeg a <;> cases isNeg b <;> simp <;> omega

/-! `fadd` (40 R68). -/

section
variable (c : Config) {a b : Binary64}

theorem fadd_of_isNaN (h : isNaN a = true ∨ isNaN b = true) : fadd c a b = nanResult c .add a b := by
  simp [fadd, h]

theorem fadd_of_opposite (ha : isInf a = true) (hb : isInf b = true) (h : isNeg a ≠ isNeg b) :
    fadd c a b = nanResult c .add a b := by
  simp [fadd, ha, hb, h]

theorem fadd_of_isInf_left (ha : isInf a = true) (hb : isNaN b = false) (h : isInf b = true → isNeg a = isNeg b) :
    fadd c a b = a := by
  simp_all [fadd, isNaN_of_isInf ha]

theorem fadd_of_isInf_right (ha : isFinite a = true) (hb : isInf b = true) : fadd c a b = b := by
  simp [fadd, hb, isNaN_of_isInf hb, isNaN_of_isFinite ha, isInf_of_isFinite ha]

theorem fadd_of_isFinite (ha : isFinite a = true) (hb : isFinite b = true) :
    fadd c a b = if value a + value b = 0 then if a = NZERO ∧ b = NZERO then NZERO else PZERO
      else rn (decide (value a + value b < 0)) (value a + value b).natAbs 1 := by
  simp only [fadd, isNaN_of_isFinite ha, isNaN_of_isFinite hb, isInf_of_isFinite ha, isInf_of_isFinite hb, eq_NZERO_iff]
  by_cases hz : isZero a = true ∧ isZero b = true
  · obtain ⟨hza, hzb⟩ := hz
    rw [(value_eq_zero_iff a).mpr hza, (value_eq_zero_iff b).mpr hzb]
    cases hna : isNeg a <;> cases hnb : isNeg b <;> simp [hza, hzb] <;> rfl
  · have hno : ¬((isZero a = true ∧ isNeg a = true) ∧ isZero b = true ∧ isNeg b = true) :=
      fun ⟨⟨hza, _⟩, hzb, _⟩ => hz ⟨hza, hzb⟩
    simp [hz, hno]

/-! `fmul` (40 R70). -/

theorem fmul_of_isNaN (h : isNaN a = true ∨ isNaN b = true) : fmul c a b = nanResult c .mul a b := by
  simp [fmul, h]

theorem fmul_of_invalid (h : (isZero a = true ∧ isInf b = true) ∨ (isInf a = true ∧ isZero b = true)) :
    fmul c a b = nanResult c .mul a b := by
  simp [fmul, h]

theorem fmul_of_isInf (ha : isInf a = true) (hb : isNaN b = false) (hz : isZero b = false) :
    fmul c a b = infinity (isNeg a ^^ isNeg b) := by
  simp [fmul, ha, hb, hz, isNaN_of_isInf ha, isZero_of_isInf ha]

theorem fmul_of_isZero (ha : isZero a = true) (hb : isFinite b = true) : fmul c a b = zero (isNeg a ^^ isNeg b) := by
  have ha' := isFinite_of_isZero ha
  simp [fmul, ha, isNaN_of_isFinite ha', isNaN_of_isFinite hb, isInf_of_isFinite ha', isInf_of_isFinite hb]

theorem fmul_of_isFinite (ha : isFinite a = true) (hb : isFinite b = true) (hza : isZero a = false) (hzb : isZero b = false) :
    fmul c a b = rn (decide (value a * value b < 0)) (value a * value b).natAbs (2 ^ 1074) := by
  rw [decide_mul_value_neg hza hzb, Int.natAbs_mul, natAbs_value, natAbs_value]
  simp [-Nat.reducePow, fmul, hza, hzb, isNaN_of_isFinite ha, isNaN_of_isFinite hb, isInf_of_isFinite ha, isInf_of_isFinite hb]

/-! `fdiv` (40 R71). -/

theorem fdiv_of_isNaN (h : isNaN a = true ∨ isNaN b = true) : fdiv c a b = nanResult c .div a b := by
  simp [fdiv, h]

theorem fdiv_of_invalid (h : (isZero a = true ∧ isZero b = true) ∨ (isInf a = true ∧ isInf b = true)) :
    fdiv c a b = nanResult c .div a b := by
  simp [fdiv, h]

theorem fdiv_of_isInf_left (ha : isInf a = true) (hb : isFinite b = true) : fdiv c a b = infinity (isNeg a ^^ isNeg b) := by
  simp [fdiv, ha, isNaN_of_isInf ha, isZero_of_isInf ha, isNaN_of_isFinite hb, isInf_of_isFinite hb]

theorem fdiv_of_isInf_right (ha : isFinite a = true) (hb : isInf b = true) : fdiv c a b = zero (isNeg a ^^ isNeg b) := by
  simp [fdiv, hb, isNaN_of_isInf hb, isZero_of_isInf hb, isNaN_of_isFinite ha, isInf_of_isFinite ha]

theorem fdiv_of_isZero_right (ha : isFinite a = true) (hza : isZero a = false) (hzb : isZero b = true) :
    fdiv c a b = infinity (isNeg a ^^ isNeg b) := by
  have hb := isFinite_of_isZero hzb
  simp [fdiv, hza, hzb, isNaN_of_isFinite ha, isNaN_of_isFinite hb, isInf_of_isFinite ha, isInf_of_isFinite hb]

theorem fdiv_of_isZero_left (hza : isZero a = true) (hb : isFinite b = true) (hzb : isZero b = false) :
    fdiv c a b = zero (isNeg a ^^ isNeg b) := by
  have ha := isFinite_of_isZero hza
  simp [fdiv, hza, hzb, isNaN_of_isFinite ha, isNaN_of_isFinite hb, isInf_of_isFinite ha, isInf_of_isFinite hb]

theorem fdiv_of_isFinite (ha : isFinite a = true) (hb : isFinite b = true) (hza : isZero a = false) (hzb : isZero b = false) :
    fdiv c a b = rn (decide (value a * value b < 0)) ((value a).natAbs * 2 ^ 1074) (value b).natAbs := by
  rw [decide_mul_value_neg hza hzb, natAbs_value, natAbs_value]
  simp [-Nat.reducePow, fdiv, hza, hzb, isNaN_of_isFinite ha, isNaN_of_isFinite hb, isInf_of_isFinite ha, isInf_of_isFinite hb]

/-! `fsqrt` (40 R72), but for a positive finite operand. -/

theorem fsqrt_of_invalid (h : isNaN a = true ∨ (isNeg a = true ∧ isZero a = false)) :
    fsqrt c a = nanResult c .sqrt a a := by
  unfold fsqrt
  split
  · rfl
  · next hnan =>
    obtain ⟨hneg, hzero⟩ := h.resolve_left hnan
    simp [hneg, hzero]

theorem fsqrt_of_isZero (h : isZero a = true) : fsqrt c a = a := by
  simp [fsqrt, h, isNaN_of_isFinite (isFinite_of_isZero h)]

theorem fsqrt_infinity : fsqrt c (infinity false) = infinity false := by
  have h := isInf_infinity false
  simp [fsqrt, isNaN_of_isInf h]

end

/-! Two results that are NaN together, and otherwise the same pattern. -/

theorem isNaN_infinity (neg : Bool) : isNaN (infinity neg) = false := isNaN_of_isInf (isInf_infinity neg)
theorem isFinite_zero (neg : Bool) : isFinite (zero neg) = true := isFinite_of_isZero (isZero_zero neg)
theorem isNaN_zero (neg : Bool) : isNaN (zero neg) = false := isNaN_of_isFinite (isFinite_zero neg)

/-- Both a NaN, or the same pattern (signs and payloads of NaNs are free, 40 R75). -/
def SameButNaN (x y : Binary64) : Prop := isNaN x = isNaN y ∧ (isNaN x = false → x = y)

theorem SameButNaN.of_eq {x y : Binary64} (h : x = y) : SameButNaN x y := ⟨congrArg isNaN h, fun _ => h⟩

theorem SameButNaN.nanResults (c : Config) (op : NanOp) (a b a' b' : Binary64) :
    SameButNaN (nanResult c op a b) (nanResult c op a' b') := ⟨by simp, by simp⟩

theorem fadd_comm (c : Config) (a b : Binary64) : SameButNaN (fadd c a b) (fadd c b a) := by
  by_cases hnan : isNaN a = true ∨ isNaN b = true
  · rw [fadd_of_isNaN c hnan, fadd_of_isNaN c hnan.symm]
    exact .nanResults ..
  obtain ⟨hna, hnb⟩ : isNaN a = false ∧ isNaN b = false := by simpa using hnan
  cases ha : isInf a <;> cases hb : isInf b
  · have hfa := isFinite_of_not hna ha
    have hfb := isFinite_of_not hnb hb
    simp only [fadd_of_isFinite c hfa hfb, fadd_of_isFinite c hfb hfa, Int.add_comm (value b), and_comm (a := b = NZERO)]
    exact .of_eq rfl
  · have hfa := isFinite_of_not hna ha
    rw [fadd_of_isInf_right c hfa hb, fadd_of_isInf_left c hb hna (by simp [ha])]
    exact .of_eq rfl
  · have hfb := isFinite_of_not hnb hb
    rw [fadd_of_isInf_right c hfb ha, fadd_of_isInf_left c ha hnb (by simp [hb])]
    exact .of_eq rfl
  · by_cases hs : isNeg a = isNeg b
    · rw [eq_infinity_of_isInf ha, eq_infinity_of_isInf hb, hs]
      exact .of_eq rfl
    · rw [fadd_of_opposite c ha hb hs, fadd_of_opposite c hb ha (Ne.symm hs)]
      exact .nanResults ..

theorem fmul_comm (c : Config) (a b : Binary64) : SameButNaN (fmul c a b) (fmul c b a) := by
  by_cases hnan : isNaN a = true ∨ isNaN b = true
  · rw [fmul_of_isNaN c hnan, fmul_of_isNaN c hnan.symm]
    exact .nanResults ..
  by_cases hinv : (isZero a = true ∧ isInf b = true) ∨ (isInf a = true ∧ isZero b = true)
  · rw [fmul_of_invalid c hinv, fmul_of_invalid c (by tauto)]
    exact .nanResults ..
  · refine .of_eq ?_
    have hinv' : ¬((isZero b = true ∧ isInf a = true) ∨ (isInf b = true ∧ isZero a = true)) := by tauto
    simp only [fmul, Bool.or_eq_true, Bool.and_eq_true, hnan, hinv, hinv', or_comm (b := isNaN a = true), if_false,
      or_comm (b := isInf a = true), or_comm (b := isZero a = true), bne_comm (b := isNeg a), Nat.mul_comm (units b)]

/-- Settles O21: the rules treat the operands alike, and equal infinities are the same pattern. -/
theorem additionAndMultiplicationCommute : Obligations.AdditionAndMultiplicationCommute := by
  intro c a b
  obtain ⟨hadd, hadd'⟩ := fadd_comm c a b
  exact ⟨hadd, hadd', fmul_comm c a b⟩

theorem SameButNaN.symm_eq {x y : Binary64} (h : SameButNaN x y) (hx : isNaN x = false) : y = x := (h.2 hx).symm

/-- Settles O60: each clause is a row of the rules; where it gives both orders, the second follows by commutativity. -/
theorem arithmeticResults : Obligations.ArithmeticResults := by
  intro c a b
  refine ⟨fun h => ?_, fun ha hb hs => ?_, fun ha hb hs => ?_, fun ha hb => ?_, fadd_of_isFinite c, fun ha hb => ?_,
    fun ha hb hz => ?_, fun ha hb => ?_, fmul_of_isFinite c, fun h => ?_, fdiv_of_isInf_left c, fdiv_of_isInf_right c,
    fdiv_of_isZero_right c, fdiv_of_isZero_left c, fdiv_of_isFinite c, fun h => ?_, fun h => ?_⟩
  · rw [fadd_of_isNaN c h, fmul_of_isNaN c h, fdiv_of_isNaN c h]
    simp
  · rw [fadd_of_opposite c ha hb hs]
    simp
  · exact fadd_of_isInf_left c ha (isNaN_of_isInf hb) fun _ => hs
  · exact ⟨fadd_of_isInf_left c ha (isNaN_of_isFinite hb) (by simp [isInf_of_isFinite hb]), fadd_of_isInf_right c hb ha⟩
  · rw [fmul_of_invalid c (.inl ⟨ha, hb⟩), fmul_of_invalid c (.inr ⟨hb, ha⟩)]
    simp
  · have hmul := fmul_of_isInf c ha hb hz
    exact ⟨hmul, ((fmul_comm c a b).symm_eq (by rw [hmul, isNaN_infinity])).trans hmul⟩
  · have hmul := fmul_of_isZero c ha hb
    exact ⟨hmul, ((fmul_comm c a b).symm_eq (by rw [hmul, isNaN_zero])).trans hmul⟩
  · rw [fdiv_of_invalid c h]
    simp
  · rw [fsqrt_of_invalid c h]
    simp
  · rcases h with hzero | rfl
    · exact fsqrt_of_isZero c hzero
    · exact fsqrt_infinity c

/-! `fsub` (40 R69) and `fneg` (40 R73). -/

theorem fsub_of_isNaN (c : Config) {a b : Binary64} (h : isNaN a = true ∨ isNaN b = true) :
    fsub c a b = nanResult c .sub a b := by
  simp [fsub, h]

theorem fsub_of_not_isNaN (c : Config) {a b : Binary64} (ha : isNaN a = false) (hb : isNaN b = false) :
    fsub c a b = fadd c a (fneg b) := by
  simp [fsub, ha, hb]

theorem fsub_of_isFinite (c : Config) {a b : Binary64} (ha : isFinite a = true) (hb : isFinite b = true) :
    fsub c a b = if value a + -value b = 0 then if a = NZERO ∧ fneg b = NZERO then NZERO else PZERO
      else rn (decide (value a + -value b < 0)) (value a + -value b).natAbs 1 := by
  rw [fsub_of_not_isNaN c (isNaN_of_isFinite ha) (isNaN_of_isFinite hb),
    fadd_of_isFinite c ha (by rw [isFinite_fneg, hb]), value_fneg]

theorem fsub_self_of_isFinite (c : Config) {a : Binary64} (ha : isFinite a = true) : fsub c a a = PZERO := by
  have hsigns : ¬(a = NZERO ∧ fneg a = NZERO) := by
    rintro ⟨rfl, h⟩
    exact absurd h (by decide)
  rw [fsub_of_isFinite c ha ha, if_pos (Int.add_right_neg _), if_neg hsigns]

/-- Settles O22: for finite operands the difference is the sum of `value a` and `-value b`, and of equal operands they cancel. -/
theorem subtractionLaws : Obligations.SubtractionLaws := by
  intro c
  refine ⟨fun _ _ => fsub_of_not_isNaN c, fun a b h => ?_, fun x hx => fsub_self_of_isFinite c hx,
    fsub_self_of_isFinite c (by decide), ?_, ?_, fsub_self_of_isFinite c (by decide)⟩
  · rw [fsub_of_isNaN c h, isNaN_nanResult]
  · rw [fsub_of_isFinite c (by decide) (by decide)]
    decide
  · rw [fsub_of_isFinite c (by decide) (by decide)]
    decide

theorem fneg_fneg (a : Binary64) : fneg (fneg a) = a := by
  rw [fneg, fneg, BitVec.xor_assoc, BitVec.xor_self, BitVec.xor_zero]

theorem getLsbD_NZERO_of_lt : ∀ i < 63, NZERO.getLsbD i = false := by decide

/-- Settles O24: `fneg` is the exclusive or with `-0`, whose only set bit is bit 63. -/
theorem negationFlipsOnlyTheSign : Obligations.NegationFlipsOnlyTheSign := by
  intro a
  refine ⟨isNeg_fneg a, fun i hi => ?_, fneg_fneg a, by decide⟩
  rw [fneg, BitVec.getLsbD_xor, getLsbD_NZERO_of_lt i hi, Bool.xor_false]

/-! Every NaN result is quiet (40 R75). -/

/-- If the pattern is a NaN, it is a quiet one. -/
def QuietIfNaN (r : Binary64) : Prop := isNaN r = true → 2 ^ 51 ≤ fracField r

theorem QuietIfNaN.of_nanResult {c : Config} {op : NanOp} {a b : Binary64} : QuietIfNaN (nanResult c op a b) := by
  intro _
  obtain ⟨bits, h⟩ := nanResult_quiet c op a b
  rw [h, fracField_quietNaN]
  exact Nat.le_add_right ..

theorem QuietIfNaN.of_not_isNaN {r : Binary64} (h : isNaN r = false) : QuietIfNaN r := fun hr => by simp [h] at hr

section
variable (c : Config) (a b : Binary64)

theorem fadd_quietIfNaN : QuietIfNaN (fadd c a b) := by
  unfold fadd
  split_ifs with _ _ ha hb
  · exact .of_nanResult
  · exact .of_nanResult
  · exact .of_not_isNaN (isNaN_of_isInf ha)
  · exact .of_not_isNaN (isNaN_of_isInf hb)
  · exact .of_not_isNaN (isNaN_zero _)
  · exact .of_not_isNaN (by decide)
  · exact .of_not_isNaN (isNaN_rn ..)

theorem fsub_quietIfNaN : QuietIfNaN (fsub c a b) := by
  unfold fsub
  split
  · exact .of_nanResult
  · exact fadd_quietIfNaN c a (fneg b)

theorem fmul_quietIfNaN : QuietIfNaN (fmul c a b) := by
  unfold fmul
  split_ifs
  · exact .of_nanResult
  · exact .of_nanResult
  · exact .of_not_isNaN (isNaN_infinity _)
  · exact .of_not_isNaN (isNaN_zero _)
  · exact .of_not_isNaN (isNaN_rn ..)

theorem fdiv_quietIfNaN : QuietIfNaN (fdiv c a b) := by
  unfold fdiv
  split_ifs
  · exact .of_nanResult
  · exact .of_nanResult
  · exact .of_not_isNaN (isNaN_infinity _)
  · exact .of_not_isNaN (isNaN_zero _)
  · exact .of_not_isNaN (isNaN_infinity _)
  · exact .of_not_isNaN (isNaN_zero _)
  · exact .of_not_isNaN (isNaN_rn ..)

theorem fsqrt_quietIfNaN : QuietIfNaN (fsqrt c a) := by
  unfold fsqrt
  split_ifs with hnan
  · exact .of_nanResult
  · exact .of_not_isNaN (by simpa using hnan)
  · exact .of_nanResult
  · exact .of_not_isNaN (by simpa using hnan)
  · exact .of_not_isNaN (isNaN_rn ..)
  · exact .of_not_isNaN (isNaN_rn ..)

end

/-- Settles O23: a NaN result is the operation's quiet NaN; no other branch of its rule gives a NaN. -/
theorem naNResultsAreQuiet : Obligations.NaNResultsAreQuiet := fun c a b =>
  ⟨fadd_quietIfNaN c a b, fsub_quietIfNaN c a b, fmul_quietIfNaN c a b, fdiv_quietIfNaN c a b, fsqrt_quietIfNaN c a⟩

/-! `flt` (40 R74). -/

theorem flt_of_isNaN {a b : Binary64} (h : isNaN a = true ∨ isNaN b = true) : flt a b = false := by
  rcases h with h | h <;> simp [flt, h]

theorem flt_iff {a b : Binary64} (ha : isNaN a = false) (hb : isNaN b = false) : flt a b = true ↔ value a < value b := by
  simp [flt, ha, hb]

theorem flt_of_le {a b : Binary64} (h : value b ≤ value a) : flt a b = false := by
  simp [flt, not_lt.mpr h]

theorem value_infinity (neg : Bool) :
    value (infinity neg) = if neg then -(units (infinity neg) : Int) else (units (infinity neg) : Int) := by
  rw [value, isNeg_infinity]

/-- The magnitude of an infinity, as the formula of 40 R66 continues to it, is past every finite one. -/
theorem units_lt_units_infinity {a : Binary64} (h : isFinite a = true) (neg : Bool) : units a < units (infinity neg) := by
  obtain ⟨hexp, -⟩ := isInf_iff.mp (isInf_infinity neg)
  have hlt := expField_lt a
  have hne : expField a ≠ 2047 := by simpa [isFinite] using h
  exact units_lt_units (by omega)

theorem value_lt_value_infinity {a : Binary64} (h : isFinite a = true) : value a < value (infinity false) := by
  have hunits := units_lt_units_infinity h false
  rw [← natAbs_value a] at hunits
  rw [value_infinity, if_neg Bool.false_ne_true]
  omega

theorem value_infinity_lt_value {a : Binary64} (h : isFinite a = true) : value (infinity true) < value a := by
  have hunits := units_lt_units_infinity h true
  rw [← natAbs_value a] at hunits
  rw [value_infinity, if_pos rfl]
  omega

/-- Settles O25: `flt` compares the values, and those of the infinities lie outside all finite ones. -/
theorem lessThanIsTheOrderOfValues : Obligations.LessThanIsTheOrderOfValues := by
  intro a b
  have hzero : isFinite PZERO = true := by decide
  have hinf := (value_infinity_lt_value hzero).trans (value_lt_value_infinity hzero)
  refine ⟨flt_of_isNaN, fun ha hb => flt_iff (isNaN_of_isFinite ha) (isNaN_of_isFinite hb), fun ha => ?_,
    (flt_iff (isNaN_infinity _) (isNaN_infinity _)).mpr hinf, flt_of_le hinf.le, flt_of_le le_rfl, flt_of_le le_rfl, rfl, rfl⟩
  have hlo := value_infinity_lt_value ha
  have hhi := value_lt_value_infinity ha
  have hnan := isNaN_of_isFinite ha
  exact ⟨(flt_iff hnan (isNaN_infinity _)).mpr hhi, (flt_iff (isNaN_infinity _) hnan).mpr hlo, flt_of_le hhi.le,
    flt_of_le hlo.le⟩

end Sys2Proof.Machine
end

section
/-!
SUPPORT. The square root (40_numerics.md R72). `rootHalves` lies on the same side of every integer as twice the root it stands
for, so the comparison with a midpoint of two values that `rn` makes on it is the comparison of the squares.
-/

namespace Sys2Proof.Machine

/-! The integer square root and twice the root in halves. -/

theorem sqrtDigits_eq_sqrt {n k r : Nat} (hlo : r * r ≤ n) (hhi : n < (r + 2 ^ k) * (r + 2 ^ k)) :
    sqrtDigits n k r = n.sqrt := by
  induction k generalizing r with
  | zero => exact Nat.eq_sqrt.mpr ⟨hlo, hhi⟩
  | succ k ih =>
    rw [sqrtDigits]
    split
    · next hle =>
      refine ih hle ?_
      rwa [Nat.add_assoc, ← Nat.two_mul, ← Nat.pow_succ']
    · next hgt => exact ih hlo (not_le.mp hgt)

theorem intSqrt_eq_sqrt {bits n : Nat} (h : n < 2 ^ bits * 2 ^ bits) : intSqrt bits n = n.sqrt :=
  sqrtDigits_eq_sqrt (Nat.zero_le n) (by rwa [Nat.zero_add])

section
variable {n : Nat} (hn : n < 2 ^ 84 * 2 ^ 84)
include hn

theorem rootHalves_eq : rootHalves n = 2 * n.sqrt + if n.sqrt * n.sqrt = n then 0 else 1 := by
  rw [rootHalves, intSqrt_eq_sqrt hn]

theorem two_mul_le_rootHalves_iff (k : Nat) : 2 * k ≤ rootHalves n ↔ k * k ≤ n := by
  rw [rootHalves_eq hn, ← Nat.le_sqrt]
  split <;> omega

theorem rootHalves_le_two_mul_iff (k : Nat) : rootHalves n ≤ 2 * k ↔ n ≤ k * k := by
  rw [rootHalves_eq hn]
  split
  · next hsq =>
    have := Nat.mul_self_le_mul_self_iff (m := n.sqrt) (n := k)
    rw [hsq] at this
    omega
  · next hsq =>
    have hne : n ≠ k * k := by
      rintro rfl
      exact hsq (by rw [Nat.sqrt_eq])
    have := Nat.sqrt_lt (m := n) (n := k)
    omega

/-- On multiples of `2^(j + 1)` the number of halves compares as the root of `4 * n * 4^j`. -/
theorem le_rootHalves_mul_iff {j m : Nat} (hm : 2 ^ (j + 1) ∣ m) :
    (m ≤ rootHalves n * 2 ^ j ↔ m ^ 2 ≤ 4 * (n * 2 ^ j * 2 ^ j)) ∧
      (rootHalves n * 2 ^ j ≤ m ↔ 4 * (n * 2 ^ j * 2 ^ j) ≤ m ^ 2) := by
  obtain ⟨k, rfl⟩ := hm
  have hpos := Nat.two_pow_pos j
  have hhalf : 2 ^ (j + 1) * k = 2 * k * 2 ^ j := by ring
  have hsq : (2 ^ (j + 1) * k) ^ 2 = k * k * (4 * (2 ^ j * 2 ^ j)) := by ring
  have hright : 4 * (n * 2 ^ j * 2 ^ j) = n * (4 * (2 ^ j * 2 ^ j)) := by ring
  rw [hsq, hright, hhalf, Nat.mul_le_mul_right_iff hpos, Nat.mul_le_mul_right_iff hpos,
    Nat.mul_le_mul_right_iff (by positivity), Nat.mul_le_mul_right_iff (by positivity)]
  exact ⟨two_mul_le_rootHalves_iff hn k, rootHalves_le_two_mul_iff hn k⟩

end

/-! `rn` of a number of halves lies between its neighbours' midpoints. -/

section
variable {n : Nat} (hn : n < overflowUnits * 2) (b : Binary64)
include hn

theorem add_units_rn_le (h : units b < units (rn false n 2)) : units b + units (rn false n 2) ≤ n := by
  obtain ⟨hle, -⟩ := rn_nearest Nat.two_pos false hn b
  omega

theorem le_units_rn_add (h : units (rn false n 2) < units b) : n ≤ units (rn false n 2) + units b := by
  obtain ⟨hle, -⟩ := rn_nearest Nat.two_pos false hn b
  omega

end

/-- No value is nearer to the square root of `x` than `r`: the midpoint of `r` and a lesser (greater) value is not above (below)
the root. -/
def NearestRoot (x : Nat) (r : Binary64) : Prop :=
  ∀ b : Binary64, (units b < units r → (units b + units r) ^ 2 ≤ 4 * x) ∧
    (units r < units b → 4 * x ≤ (units r + units b) ^ 2)

/-- The square root of `n * 4^j` units rounded by its halves. From `2^(53 + j)` on all values are multiples of `2^(j + 1)`, so the
midpoint of two of them compares rightly; the result is such a value, and any value below `2^(53 + j)` gives a lesser midpoint
than `2^(53 + j)` does. -/
theorem rn_rootHalves_nearest {n j : Nat} (hlo : 2 ^ 112 ≤ n) (hhi : n < 2 ^ 84 * 2 ^ 84) (hj : j ≤ 1600) :
    isFinite (rn false (rootHalves n * 2 ^ j) 2) = true ∧
      NearestRoot (n * 2 ^ j * 2 ^ j) (rn false (rootHalves n * 2 ^ j) 2) := by
  have hbound : rootHalves n * 2 ^ j < overflowUnits * 2 := by
    refine lt_overflowUnits (k := 85 + j) (by omega) ?_
    have hle := Nat.mul_le_mul_right (2 ^ j) ((rootHalves_le_two_mul_iff hhi (2 ^ 84)).mpr hhi.le)
    have hpos := Nat.two_pow_pos j
    rw [Nat.pow_add]
    omega
  refine ⟨isFinite_rn Nat.two_pos false hbound, ?_⟩
  obtain ⟨w, hw⟩ : ∃ w : Binary64, units w = 2 ^ (52 + (j + 1)) := by
    have := (units_rn_scaled false (m := 1) (k := 52 + (j + 1)) (by decide) (by omega)).2
    rw [Nat.one_mul] at this
    exact ⟨_, this⟩
  have hwle : 2 * units w ≤ rootHalves n * 2 ^ j := by
    have hle := Nat.mul_le_mul_right (2 ^ j) ((two_mul_le_rootHalves_iff hhi (2 ^ 53)).mpr (by omega))
    rw [hw, show 52 + (j + 1) = 53 + j by omega, Nat.pow_add]
    omega
  have hbelow := add_units_rn_le hbound
  have habove := le_units_rn_add hbound
  generalize rn false (rootHalves n * 2 ^ j) 2 = r at *
  have hwr : units w ≤ units r := by
    by_contra h
    have := habove w (by omega)
    omega
  have hwmid : units w + units r ≤ rootHalves n * 2 ^ j := by
    rcases hwr.lt_or_eq with h | h
    · exact hbelow w h
    · omega
  have hmultiple {v : Binary64} (h : units w ≤ units v) : 2 ^ (j + 1) ∣ units v := two_pow_dvd_units (by rwa [← hw])
  refine fun b => ⟨fun h => ?_, fun h => ?_⟩
  · rcases le_total (units w) (units b) with hb | hb
    · exact (le_rootHalves_mul_iff hhi (Nat.dvd_add (hmultiple hb) (hmultiple hwr))).1.mp (hbelow b h)
    · calc (units b + units r) ^ 2 ≤ (units w + units r) ^ 2 := Nat.pow_le_pow_left (by omega) 2
        _ ≤ 4 * (n * 2 ^ j * 2 ^ j) :=
          (le_rootHalves_mul_iff hhi (Nat.dvd_add (hmultiple le_rfl) (hmultiple hwr))).1.mp hwmid
  · exact (le_rootHalves_mul_iff hhi (Nat.dvd_add (hmultiple hwr) (hmultiple (hwr.trans h.le)))).2.mp (habove b h)

/-- The root of `sig * 2^t` units: its square is `sig * 2^(t + 1074)`, split as `sqrtUnits` does. -/
theorem sqrtUnits_nearest {sig t : Nat} (hpos : 0 < sig) (hsig : sig < 2 ^ 53) (ht : t ≤ 2045) :
    isFinite (sqrtUnits sig t) = true ∧ NearestRoot (sig * 2 ^ t * 2 ^ 1074) (sqrtUnits sig t) := by
  have hsplit : sig * 2 ^ t * 2 ^ 1074 =
      sig * 2 ^ (112 + t % 2) * 2 ^ ((t + 1074 - (112 + t % 2)) / 2) * 2 ^ ((t + 1074 - (112 + t % 2)) / 2) := by
    rw [Nat.mul_assoc, ← Nat.pow_add, Nat.mul_assoc, Nat.mul_assoc, ← Nat.pow_add, ← Nat.pow_add]
    congr 2
    omega
  rw [hsplit]
  refine rn_rootHalves_nearest ?_ ?_ (by omega)
  · calc 2 ^ 112 ≤ 2 ^ (112 + t % 2) := Nat.pow_le_pow_right Nat.two_pos (Nat.le_add_right ..)
      _ ≤ sig * 2 ^ (112 + t % 2) := Nat.le_mul_of_pos_left _ hpos
  · calc sig * 2 ^ (112 + t % 2) ≤ sig * 2 ^ 113 := Nat.mul_le_mul_left _ (Nat.pow_le_pow_right Nat.two_pos (by omega))
      _ < 2 ^ 84 * 2 ^ 84 := by omega

theorem isNeg_sqrtUnits (sig t : Nat) : isNeg (sqrtUnits sig t) = false := isNeg_rn ..

/-- A positive finite operand as significand and power of two (40 R66). -/
theorem fsqrt_of_pos (c : Config) {a : Binary64} (hfin : isFinite a = true) (hzero : isZero a = false) (hneg : isNeg a = false) :
    ∃ sig t, 0 < sig ∧ sig < 2 ^ 53 ∧ t ≤ 2045 ∧ units a = sig * 2 ^ t ∧ fsqrt c a = sqrtUnits sig t := by
  have hfrac := fracField_lt a
  have hlt := expField_lt a
  have hne : expField a ≠ 2047 := by simpa [isFinite] using hfin
  have hroot : fsqrt c a = if expField a = 0 then sqrtUnits (fracField a) 0
      else sqrtUnits (2 ^ 52 + fracField a) (expField a - 1) := by
    simp [fsqrt, isNaN_of_isFinite hfin, hzero, hneg, isInf_of_isFinite hfin]
  by_cases he : expField a = 0
  · have hpos : fracField a ≠ 0 := fun h => by simp [isZero, he, h] at hzero
    exact ⟨fracField a, 0, by omega, by omega, by omega, by rw [units_of_expField_eq_zero he, Nat.pow_zero, Nat.mul_one],
      hroot.trans (if_pos he)⟩
  · exact ⟨2 ^ 52 + fracField a, expField a - 1, by omega, by omega, by omega, units_of_expField_ne_zero he,
      hroot.trans (if_neg he)⟩

/-- Settles O20: the operand's significand and exponent are the arguments of `sqrtUnits`. -/
theorem squareRootIsNearest : Obligations.SquareRootIsNearest := by
  intro c a hfin hzero hneg
  obtain ⟨sig, t, hpos, hsig, ht, hunits, hroot⟩ := fsqrt_of_pos c hfin hzero hneg
  obtain ⟨hfinite, hnearest⟩ := sqrtUnits_nearest hpos hsig ht
  rw [hunits, hroot]
  exact ⟨hfinite, isNeg_sqrtUnits sig t, fun b _ => hnearest b⟩

end Sys2Proof.Machine
end

section
/-!
SUPPORT. The integer laws (40_numerics.md R81, R83, R84) and the properties that every `COS` and `SIN` is held to (R78).
-/

namespace Sys2Proof.Machine

/-! Powers of two. -/

theorem ispow2_iff {n : Nat} : ispow2 n = true ↔ ∃ j, n = 2 ^ j := by
  rw [ispow2, decide_eq_true_eq]
  refine ⟨fun h => ⟨_, h⟩, ?_⟩
  rintro ⟨j, rfl⟩
  rw [Nat.log2_two_pow]

theorem npow2_of_ispow2 {n : Nat} (h : ispow2 n = true) : npow2 n = n := by
  rw [npow2, if_pos h, ite_eq_right_iff]
  exact Eq.symm

theorem npow2_of_not_ispow2 {n : Nat} (h0 : n ≠ 0) (h : ispow2 n = false) : npow2 n = 2 ^ (n.log2 + 1) := by
  simp [npow2, h0, h]

/-- Settles O29: between `n` and `2^(log2 n + 1)` there is no power of two. -/
theorem powerOfTwoLaws : Obligations.PowerOfTwoLaws := by
  refine ⟨fun n => ispow2_iff, rfl, fun n => npow2_of_ispow2, fun n h0 h => ?_, fun n k => npow2_le_two_pow⟩
  rw [npow2_of_not_ispow2 h0 h]
  refine ⟨ispow2_iff.mpr ⟨_, rfl⟩, Nat.lt_log2_self, fun m hm hlt => ?_⟩
  rw [← npow2_of_not_ispow2 h0 h]
  obtain ⟨j, rfl⟩ := ispow2_iff.mp hm
  exact npow2_le_two_pow hlt.le

/-! The signed residue. -/

/-- `wrapInt` of `k + 1` bits has `k` bits of magnitude. -/
theorem wrapInt_succ (k : Nat) (r : Int) :
    -(2 ^ k) ≤ wrapInt (k + 1) r ∧ wrapInt (k + 1) r < 2 ^ k ∧ (wrapInt (k + 1) r - r) % 2 ^ (k + 1) = 0 ∧
      (-(2 ^ k) ≤ r → r < 2 ^ k → wrapInt (k + 1) r = r) := by
  have hpos : 0 < 2 ^ (k + 1) := Nat.two_pow_pos _
  have hcast : ((2 ^ (k + 1) : Nat) : Int) = 2 * 2 ^ k := by push_cast; ring
  have hlo := Int.le_bmod (x := r) hpos
  have hhi := Int.bmod_lt (x := r) hpos
  have hdvd := Int.dvd_bmod_sub_self (x := r) (m := 2 ^ (k + 1))
  have hrange := Int.bmod_eq_of_le (n := r) (m := 2 ^ (k + 1))
  rw [hcast] at hlo hhi hrange
  rw [Nat.cast_pow, Nat.cast_ofNat] at hdvd
  unfold wrapInt
  exact ⟨by omega, by omega, Int.emod_eq_zero_of_dvd hdvd, fun _ _ => hrange (by omega) (by omega)⟩

/-- Settles O28 for each of the three widths. -/
theorem wrapIsTheSignedResidue : Obligations.WrapIsTheSignedResidue := by
  rintro w r (rfl | rfl | rfl)
  · exact wrapInt_succ 7 r
  · exact wrapInt_succ 15 r
  · exact wrapInt_succ 31 r

/-! `COS` and `SIN`. -/

theorem unitBounded_spec (b : Binary64) : isFinite (unitBounded b) = true ∧ units (unitBounded b) ≤ units ONE := by
  unfold unitBounded
  split
  · next h => simpa using h
  · exact ⟨by decide, le_rfl⟩

theorem fcos_of_isFinite (c : Config) {a : Binary64} (h : isFinite a = true) :
    isFinite (fcos c a) = true ∧ units (fcos c a) ≤ units ONE := by
  unfold fcos
  split
  · exact ⟨by decide, le_rfl⟩
  · exact unitBounded_spec _

theorem fsin_of_isFinite (c : Config) {a : Binary64} (h : isFinite a = true) :
    isFinite (fsin c a) = true ∧ units (fsin c a) ≤ units ONE := by
  unfold fsin
  split
  · exact ⟨by decide, Nat.zero_le _⟩
  · exact unitBounded_spec _

/-- Settles O30: at `+0` the values are given, at every other finite argument `unitBounded` imposes the bound. -/
theorem trigProperties : Obligations.TrigProperties := by
  intro c
  refine ⟨if_pos rfl, if_pos rfl, fun a ha => ?_⟩
  obtain ⟨hcos, hcos'⟩ := fcos_of_isFinite c ha
  exact ⟨hcos, hcos', fsin_of_isFinite c ha⟩

end Sys2Proof.Machine
end

section
/-!
SUPPORT. The conversion and padding commands (41_convert_pad.md R86 to R89): what each reads after its writes, that `FFTRZP` and
`ZPAD; CLRIM` prepare the same sequence for the transform, and what the four leave alone.
-/

namespace Sys2Proof.Machine

/-! Commands whose writes stand behind the length check alone (41 R85). -/

theorem complete_withinCap_of_le {n : Reg32} {s : State} (h : n.toNat ≤ s.cap) (write : State → State) :
    complete (withinCap n s fun s => .ok (write s)) s = .next (finish (write s)) := by
  rw [withinCap_of_le s h]
  rfl

theorem complete_withinCap_next {n : Reg32} {s t : State} {write : State → State}
    (h : complete (withinCap n s fun s => .ok (write s)) s = .next t) :
    (∃ f, t = raise f s) ∨ (n.toNat ≤ s.cap ∧ t = finish (write s)) := by
  rcases withinCap_cases s n (fun s => .ok (write s)) with ⟨-, hr⟩ | ⟨hc, hr⟩ <;> rw [hr] at h <;> cases h
  · exact .inl ⟨_, rfl⟩
  · exact .inr ⟨hc, rfl⟩

@[simp] theorem finish_finish (s : State) : finish (finish s) = finish s := by
  simp [finish, completedStatus]

theorem clearImaginary_finish (s : State) : clearImaginary (finish s) = finish (clearImaginary s) := rfl
theorem forwardTransform_finish (s : State) : forwardTransform (finish s) = finish (forwardTransform s) := rfl

/-! The reads after `TOFLT`'s, `CLRIM`'s and `ZPAD`'s writes. -/

section Reads

variable (s : State)

theorem convertSamples_readRe (i : Nat) :
    (convertSamples s).readRe i = if i < s.slen.toNat then i2f (s.readSmp i).toInt else s.readRe i := by
  rw [convertSamples, State.setOlen_readRe, State.setLen_readRe, State.readRe_setRe, Mem.read_writeList,
    if_pos (Nat.zero_le i), Nat.sub_zero, List.getElem?_map]
  split
  · next h => rw [State.samples_getElem? s h]; rfl
  · next h => rw [List.getElem?_eq_none (by simpa using h)]; rfl

theorem clearImaginary_readIm (i : Nat) :
    (clearImaginary s).readIm i = if i < s.len.toNat then PZERO else s.readIm i := by
  simp [clearImaginary, State.readIm, Mem.read_fillAt]

theorem padZeros_readRe (i : Nat) :
    (padZeros s).readRe i = if s.len.toNat ≤ i ∧ i < npow2 s.len.toNat then PZERO else s.readRe i := by
  simp [padZeros, State.readRe, Mem.read_fillAt, mem_padRange]

theorem padZeros_readIm (i : Nat) :
    (padZeros s).readIm i = if s.len.toNat ≤ i ∧ i < npow2 s.len.toNat then PZERO else s.readIm i := by
  simp [padZeros, State.readIm, Mem.read_fillAt, mem_padRange]

theorem padZeros_reads_of_outside {i : Nat} (hi : i < s.len.toNat ∨ npow2 s.len.toNat ≤ i) :
    (padZeros s).readRe i = s.readRe i ∧ (padZeros s).readIm i = s.readIm i := by
  have hout : ¬(s.len.toNat ≤ i ∧ i < npow2 s.len.toNat) := by omega
  rw [padZeros_readRe, padZeros_readIm, if_neg hout, if_neg hout]
  exact ⟨rfl, rfl⟩

end Reads

/-! The padded length (41 R88). -/

theorem padZeros_len (s : State) : (padZeros s).len = BitVec.ofNat 32 (npow2 s.len.toNat) := rfl
theorem padAndTransform_len (s : State) : (padAndTransform s).len = BitVec.ofNat 32 (npow2 s.len.toNat) := rfl

/-- The padded length is at most `CAP`, so `LEN` holds it in full. -/
theorem paddedLength_toNat {s : State} (h : s.len.toNat ≤ s.cap) :
    (BitVec.ofNat 32 (npow2 s.len.toNat)).toNat = npow2 s.len.toNat := by
  have hcap : s.cap < 2 ^ 32 := Nat.pow_lt_pow_right (by decide) (by omega)
  exact Nat.mod_eq_of_lt ((npow2_le_cap h).trans_lt hcap)

/-! What the four commands leave alone when they complete. -/

section Frames

variable (s : State)

theorem finish_convertSamples_frame :
    ((((finish (convertSamples s)).setRe s.re).setLen s.len).setOlen s.olen).setStatus s.status = s := by
  apply State.eq_of_fields <;> simp

theorem finish_clearImaginary_frame : ((finish (clearImaginary s)).setIm s.im).setStatus s.status = s := by
  apply State.eq_of_fields <;> simp

theorem finish_padZeros_frame :
    ((((finish (padZeros s)).setRe s.re).setIm s.im).setLen s.len).setStatus s.status = s := by
  apply State.eq_of_fields <;> simp

theorem finish_padAndTransform_frame :
    ((((finish (padAndTransform s)).setRe s.re).setIm s.im).setLen s.len).setStatus s.status = s := by
  apply State.eq_of_fields <;> simp

end Frames

/-! The completions (30 R58). -/

theorem exec_toflt_of_le {s : State} (h : s.slen.toNat ≤ s.cap) : exec .toflt s = .next (finish (convertSamples s)) :=
  complete_withinCap_of_le h convertSamples

theorem exec_clrim_of_le {s : State} (h : s.len.toNat ≤ s.cap) : exec .clrim s = .next (finish (clearImaginary s)) :=
  complete_withinCap_of_le h clearImaginary

theorem exec_zpad_of_le {s : State} (h : s.len.toNat ≤ s.cap) : exec .zpad s = .next (finish (padZeros s)) :=
  complete_withinCap_of_le h padZeros

theorem exec_fftrzp_of_le {s : State} (h : s.len.toNat ≤ s.cap) : exec .fftrzp s = .next (finish (padAndTransform s)) :=
  complete_withinCap_of_le h padAndTransform

/-- Settles O38: the converted samples are the first `SLEN` reals. -/
theorem tofltCompletes : Obligations.TofltCompletes := by
  intro s h
  refine ⟨_, exec_toflt_of_le h, fun i hi => ?_, fun i hi => ?_, rfl, rfl, rfl, finish_convertSamples_frame s⟩
  · rw [finish_readRe, convertSamples_readRe, if_pos hi]
  · rw [finish_readRe, convertSamples_readRe, if_neg (Nat.not_lt.mpr hi)]

/-- Settles O39: the elements filled are those below `LEN`. -/
theorem clrimCompletes : Obligations.ClrimCompletes := fun s h =>
  ⟨_, exec_clrim_of_le h, clearImaginary_readIm s, rfl, finish_clearImaginary_frame s⟩

/-- Settles O40: the elements filled are those of the padding range, and `LEN` can hold the padded length. -/
theorem zpadCompletes : Obligations.ZpadCompletes := by
  intro s h
  refine ⟨_, exec_zpad_of_le h, paddedLength_toNat h, fun i hlo hhi => ?_, fun i hi => padZeros_reads_of_outside s hi, rfl,
    finish_padZeros_frame s⟩
  rw [finish_readRe, finish_readIm, padZeros_readRe, padZeros_readIm, if_pos ⟨hlo, hhi⟩, if_pos ⟨hlo, hhi⟩]
  exact ⟨rfl, rfl⟩

/-! The transform of a sequence of length 0 or a power of two, in place. -/

theorem npow2_eq_zero_or_ispow2 (n : Nat) : npow2 n = 0 ∨ ispow2 (npow2 n) = true := by
  by_cases h0 : n = 0
  · exact .inl (if_pos h0)
  · cases h : ispow2 n
    · exact .inr (ispow2_iff.mpr ⟨_, npow2_of_not_ispow2 h0 h⟩)
    · exact .inr (by rwa [npow2_of_ispow2 h])

theorem fft_length (c : Config) {x : List Bin} (h : x.length = 0 ∨ ispow2 x.length = true) :
    (fft c x).length = x.length := by
  rcases h with h | h
  · exact le_antisymm (fft_length_le c x) (by omega)
  · exact fftDepth_length c _ x (of_decide_eq_true h)

theorem storeBins_bin (s : State) (x : List Bin) (i : Nat) : (s.storeBins x).bin i = (x[i]?).getD (s.bin i) := by
  rw [State.bin, State.readRe_storeBins, State.readIm_storeBins]
  cases x[i]? <;> rfl

/-- Below the length every coefficient is one of the transform's. -/
theorem forwardTransform_bin_of_lt {s : State} (hlen : s.len.toNat = 0 ∨ ispow2 s.len.toNat = true) {i : Nat}
    (hi : i < s.len.toNat) :
    (fft s.config (s.bins s.len.toNat))[i]? = some ((forwardTransform s).bin i) := by
  have hlt : i < (fft s.config (s.bins s.len.toNat)).length := by
    rwa [fft_length s.config (by simpa using hlen), State.bins_length]
  rw [forwardTransform, storeBins_bin, List.getElem?_eq_getElem hlt, Option.getD_some]

theorem forwardTransform_bin_of_le (s : State) {i : Nat} (hi : s.len.toNat ≤ i) :
    (forwardTransform s).bin i = s.bin i := by
  have hle : (fft s.config (s.bins s.len.toNat)).length ≤ i := (fft_length_le _ _).trans (by simpa using hi)
  rw [forwardTransform, storeBins_bin, List.getElem?_eq_none hle, Option.getD_none]

/-! The padded real sequence (41 R89). -/

/-- Coefficient `i` of the real sequence of `s`, padded with `+0`, with a `+0` imaginary part. -/
def State.paddedReal (s : State) (i : Nat) : Bin :=
  { re := if i < s.len.toNat then s.readRe i else PZERO, im := PZERO }

/-- `v` holds the padded real sequence of `s` below the padded length, and the coefficients of `s` from there on. -/
structure HoldsPaddedReal (s v : State) : Prop where
  config : v.config = s.config
  len : v.len.toNat = npow2 s.len.toNat
  below : ∀ i < npow2 s.len.toNat, v.bin i = s.paddedReal i
  above : ∀ i, npow2 s.len.toNat ≤ i → v.bin i = s.bin i

namespace HoldsPaddedReal

variable {s v v' : State}

/-- Clearing the imaginary parts leaves the padded real sequence, if the real parts and the length are already padded. -/
theorem of_clearImaginary (config : v.config = s.config) (len : v.len.toNat = npow2 s.len.toNat)
    (re : ∀ i, v.readRe i = if s.len.toNat ≤ i ∧ i < npow2 s.len.toNat then PZERO else s.readRe i)
    (im : ∀ i, npow2 s.len.toNat ≤ i → v.readIm i = s.readIm i) : HoldsPaddedReal s (clearImaginary v) where
  config := (clearImaginary_config v).trans config
  len := by rw [clearImaginary_len, len]
  below i hi := by
    rw [State.bin, clearImaginary_readRe, clearImaginary_readIm, re, len, if_pos hi, State.paddedReal]
    by_cases hlt : i < s.len.toNat
    · rw [if_neg (by omega), if_pos hlt]
    · rw [if_pos (by omega), if_neg hlt]
  above i hi := by
    rw [State.bin, clearImaginary_readRe, clearImaginary_readIm, re, len, if_neg (by omega), if_neg (by omega), im i hi,
      State.bin]

theorem bins (h : HoldsPaddedReal s v) :
    v.bins v.len.toNat = (List.range (npow2 s.len.toNat)).map s.paddedReal := by
  rw [h.len]
  exact List.map_congr_left fun i hi => h.below i (List.mem_range.mp hi)

theorem transform_bin_of_lt (h : HoldsPaddedReal s v) {i : Nat} (hi : i < npow2 s.len.toNat) :
    (fft s.config ((List.range (npow2 s.len.toNat)).map s.paddedReal))[i]? = some ((forwardTransform v).bin i) := by
  rw [← h.config, ← h.bins]
  exact forwardTransform_bin_of_lt (h.len ▸ npow2_eq_zero_or_ispow2 _) (h.len ▸ hi)

theorem transform_bin_of_le (h : HoldsPaddedReal s v) {i : Nat} (hi : npow2 s.len.toNat ≤ i) :
    (forwardTransform v).bin i = s.bin i := by
  rw [forwardTransform_bin_of_le v (h.len.trans_le hi), h.above i hi]

/-- The transform of the padded real sequence does not depend on how the sequence was prepared (30 R64). -/
theorem transform_bin_eq (h : HoldsPaddedReal s v) (h' : HoldsPaddedReal s v') (i : Nat) :
    (forwardTransform v').bin i = (forwardTransform v).bin i := by
  rcases Nat.lt_or_ge i (npow2 s.len.toNat) with hi | hi
  · exact Option.some.inj ((h'.transform_bin_of_lt hi).symm.trans (h.transform_bin_of_lt hi))
  · rw [h'.transform_bin_of_le hi, h.transform_bin_of_le hi]

end HoldsPaddedReal

/-- What `FFTRZP` transforms. -/
def preparePadded (s : State) : State :=
  clearImaginary (padLength (s.setRe (s.re.fillAt PZERO (padRange s.len.toNat))))

theorem padAndTransform_eq_forwardTransform (s : State) : padAndTransform s = forwardTransform (preparePadded s) := rfl

theorem preparePadded_holds {s : State} (h : s.len.toNat ≤ s.cap) : HoldsPaddedReal s (preparePadded s) :=
  .of_clearImaginary rfl (paddedLength_toNat h) (padZeros_readRe s) fun _ _ => rfl

/-- `ZPAD; CLRIM` prepares the same sequence: it pads `IM` too, and clears that again. -/
theorem clearImaginary_padZeros_holds {s : State} (h : s.len.toNat ≤ s.cap) :
    HoldsPaddedReal s (clearImaginary (padZeros s)) :=
  .of_clearImaginary (padZeros_config s) (paddedLength_toNat h) (padZeros_readRe s) fun i hi => by
    rw [padZeros_readIm, if_neg (by omega)]

section

variable {s : State} (h : s.len.toNat ≤ s.cap)
include h

theorem padAndTransform_bin_of_lt {i : Nat} (hi : i < npow2 s.len.toNat) :
    (fft s.config ((List.range (npow2 s.len.toNat)).map s.paddedReal))[i]? = some ((padAndTransform s).bin i) := by
  rw [padAndTransform_eq_forwardTransform]
  exact (preparePadded_holds h).transform_bin_of_lt hi

theorem padAndTransform_bin_of_le {i : Nat} (hi : npow2 s.len.toNat ≤ i) : (padAndTransform s).bin i = s.bin i := by
  rw [padAndTransform_eq_forwardTransform]
  exact (preparePadded_holds h).transform_bin_of_le hi

/-- `ZPAD; CLRIM; FFT` leaves the coefficients `FFTRZP` leaves. -/
theorem zpad_clrim_fft_bin (i : Nat) :
    (forwardTransform (clearImaginary (padZeros s))).bin i = (padAndTransform s).bin i := by
  rw [padAndTransform_eq_forwardTransform]
  exact (preparePadded_holds h).transform_bin_eq (clearImaginary_padZeros_holds h) i

end

/-! `ZPAD; CLRIM; FFT` as one run (30 R64). -/

theorem runCommands_cons {i : Instr} {is : List Instr} {s t : State} (h : exec i s = .next t) :
    runCommands (i :: is) s = runCommands is t := by
  rw [runCommands, h]

/-- `FFT` with both its checks met (42 R101). -/
theorem exec_fft_of_pow2 {s : State} (hcap : s.len.toNat ≤ s.cap) (hlen : s.len.toNat = 0 ∨ ispow2 s.len.toNat = true) :
    exec .fft s = .next (finish (forwardTransform s)) := by
  have hcode : fftCode s = .ok (forwardTransform s) := by
    rcases fftCode_cases s with ⟨hc, -⟩ | ⟨-, h0, hp, -⟩ | ⟨-, -, h⟩
    · omega
    · simp [h0, hp] at hlen
    · exact h
  rw [exec, execFft, hcode, complete]

/-- The writes of a command act alike whatever `STATUS` holds, so the completions in between show only in `STATUS`, which the
last one writes again. -/
theorem runCommands_zpad_clrim_fft {s : State} (h : s.len.toNat ≤ s.cap) :
    runCommands [.zpad, .clrim, .fft] s = .next (finish (forwardTransform (clearImaginary (padZeros s)))) := by
  have hlen : (padZeros s).len.toNat = npow2 s.len.toNat := paddedLength_toNat h
  have hcap : (padZeros s).len.toNat ≤ s.cap := hlen.trans_le (npow2_le_cap h)
  have hpow : (padZeros s).len.toNat = 0 ∨ ispow2 (padZeros s).len.toNat = true := hlen ▸ npow2_eq_zero_or_ispow2 _
  have hclrim : exec .clrim (finish (padZeros s)) = .next (finish (clearImaginary (padZeros s))) := by
    rw [exec_clrim_of_le (by simpa using hcap), clearImaginary_finish, finish_finish]
  have hfft : exec .fft (finish (clearImaginary (padZeros s))) =
      .next (finish (forwardTransform (clearImaginary (padZeros s)))) := by
    rw [exec_fft_of_pow2 (by simpa using hcap) (by simpa using hpow), forwardTransform_finish, finish_finish]
  rw [runCommands_cons (exec_zpad_of_le h), runCommands_cons hclrim, runCommands_cons hfft, runCommands]

/-- `ZPAD; CLRIM; FFT` ends in the state `FFTRZP` ends in, but for the lists of elements written. -/
theorem finish_zpad_clrim_fft_frame (s : State) :
    ((finish (forwardTransform (clearImaginary (padZeros s)))).setRe (finish (padAndTransform s)).re).setIm
      (finish (padAndTransform s)).im = finish (padAndTransform s) := by
  apply State.eq_of_fields <;> simp [padZeros_len, padAndTransform_len]

/-- Settles O41: both ways the transform is taken of the padded real sequence. -/
theorem fftrzpCompletes : Obligations.FftrzpCompletes := by
  intro s h
  exact ⟨_, _, exec_fftrzp_of_le h, paddedLength_toNat h, fun i hi => padAndTransform_bin_of_lt h hi,
    fun i hi => padAndTransform_bin_of_le h hi, rfl, finish_padAndTransform_frame s, runCommands_zpad_clrim_fft h,
    fun i => congrArg Bin.re (zpad_clrim_fft_bin h i), fun i => congrArg Bin.im (zpad_clrim_fft_bin h i),
    finish_zpad_clrim_fft_frame s⟩

/-- Settles O55: a fault changes `STATUS` alone, and the writes behind the check leave the rest alone. -/
theorem convertAndPadFrame : Obligations.ConvertAndPadFrame := by
  refine ⟨fun s t h => ?_, fun s t h => ?_, fun s t h => ?_, fun s t h => ?_⟩
  · rcases complete_withinCap_next (write := convertSamples) h with ⟨f, rfl⟩ | ⟨-, rfl⟩
    · exact ⟨rfl, fun _ => rfl, fun _ => rfl, fun _ _ => rfl⟩
    · refine ⟨finish_convertSamples_frame s, convertSamples_readSmp s, convertSamples_readIm s, fun i hi => ?_⟩
      rw [finish_readRe, convertSamples_readRe, if_neg (Nat.not_lt.mpr hi)]
  · rcases complete_withinCap_next (write := clearImaginary) h with ⟨f, rfl⟩ | ⟨-, rfl⟩
    · exact ⟨rfl, fun _ => rfl, fun _ => rfl, fun _ _ => rfl⟩
    · refine ⟨finish_clearImaginary_frame s, clearImaginary_readSmp s, clearImaginary_readRe s, fun i hi => ?_⟩
      rw [finish_readIm, clearImaginary_readIm, if_neg (Nat.not_lt.mpr hi)]
  · rcases complete_withinCap_next (write := padZeros) h with ⟨f, rfl⟩ | ⟨-, rfl⟩
    · exact ⟨rfl, fun _ => rfl, fun _ _ => ⟨rfl, rfl⟩⟩
    · exact ⟨finish_padZeros_frame s, padZeros_readSmp s, fun i hi => padZeros_reads_of_outside s hi⟩
  · rcases complete_withinCap_next (write := padAndTransform) h with ⟨f, rfl⟩ | ⟨hc, rfl⟩
    · exact ⟨rfl, fun _ => rfl, fun _ _ => ⟨rfl, rfl⟩⟩
    · refine ⟨finish_padAndTransform_frame s, padAndTransform_readSmp s, fun i hi => ?_⟩
      have hbin := padAndTransform_bin_of_le hc hi
      exact ⟨congrArg Bin.re hbin, congrArg Bin.im hbin⟩

end Sys2Proof.Machine
end

section
/-!
SUPPORT. The transform on sequences (42_transform.md R99, R100): one level of the recursion as an equation and element by element,
and the iterative schedule. Bit reversal puts the even-indexed elements of a sequence, themselves reversed, before the odd-indexed
ones, and the passes act on the two halves apart until the last one combines them, so that the schedule follows the recursion.
-/

namespace Sys2Proof.Machine

section

variable (c : Config)

/-! The recursion (42 R99). -/

theorem fft_of_length_le_one {x : List Bin} (h : x.length ≤ 1) : fft c x = x := by
  unfold fft
  cases x.length.log2 with
  | zero => rfl
  | succ d => rw [fftDepth, if_pos h]

theorem fft_of_length_two_pow {d : Nat} {x : List Bin} (h : x.length = 2 ^ d) : fft c x = fftDepth c d x := by
  rw [fft, h, Nat.log2_two_pow]

theorem evens_length_of_two_pow {α : Type} {d : Nat} {x : List α} (h : x.length = 2 ^ (d + 1)) :
    (evens x).length = 2 ^ d := by
  rw [evens_length, h, Nat.pow_succ]
  omega

theorem odds_length_of_two_pow {α : Type} {d : Nat} {x : List α} (h : x.length = 2 ^ (d + 1)) :
    (odds x).length = 2 ^ d := by
  rw [odds_length, h, Nat.pow_succ]
  omega

theorem fft_length_of_two_pow {d : Nat} {x : List Bin} (h : x.length = 2 ^ d) : (fft c x).length = 2 ^ d := by
  rw [fft_of_length_two_pow c h, fftDepth_length c d x h, h]

/-- One level of the recursion. -/
theorem fft_eq_combine {d : Nat} {x : List Bin} (h : x.length = 2 ^ (d + 1)) :
    fft c x = combine c (2 ^ (d + 1)) (fft c (evens x)) (fft c (odds x)) := by
  have hlong : ¬2 ^ (d + 1) ≤ 1 := not_le.mpr (Nat.one_lt_two_pow (Nat.succ_ne_zero d))
  rw [fft_of_length_two_pow c h, fft_of_length_two_pow c (evens_length_of_two_pow h),
    fft_of_length_two_pow c (odds_length_of_two_pow h), fftDepth, h, if_neg hlong]

/-- The butterflies of two halves of length `m`, element by element (42 R98). -/
theorem combine_getElem? (n : Nat) {m k : Nat} {e o : List Bin} (he : e.length = m) (ho : o.length = m) (hk : k < m) :
    ∃ a b, e[k]? = some a ∧ o[k]? = some b ∧
      (combine c n e o)[k]? = some (butterflyAdd c a (rotate c (twiddle c k n) b)) ∧
      (combine c n e o)[k + m]? = some (butterflySub c a (rotate c (twiddle c k n) b)) := by
  have hek : e[k]? = some (e[k]'(by omega)) := List.getElem?_eq_getElem _
  have hok : o[k]? = some (o[k]'(by omega)) := List.getElem?_eq_getElem _
  have hfirst : (List.zipWith (butterflyAdd c) e (rotateFrom c n 0 o)).length = m := by simp [he, ho]
  refine ⟨_, _, hek, hok, ?_, ?_⟩
  · rw [combine, List.getElem?_append_left (by omega), List.getElem?_zipWith, rotateFrom_getElem?, hek, hok, Nat.zero_add]
    rfl
  · rw [combine, List.getElem?_append_right (by omega), hfirst, Nat.add_sub_cancel, List.getElem?_zipWith,
      rotateFrom_getElem?, hek, hok, Nat.zero_add]
    rfl

end

/-- Settles O33: one level of the recursion, whose butterflies `combine_getElem?` reads. -/
theorem forwardTransformRecursion : Obligations.ForwardTransformRecursion := by
  intro c x
  refine ⟨fft_of_length_le_one c, fun d h => ⟨fft_length_of_two_pow c h,
    fun k => ⟨evens_getElem? x k, odds_getElem? x k⟩, fun k hk => ?_⟩⟩
  rw [fft_eq_combine c h]
  exact combine_getElem? c _ (fft_length_of_two_pow c (evens_length_of_two_pow h))
    (fft_length_of_two_pow c (odds_length_of_two_pow h)) hk

/-! Bit reversal (42 R100). -/

/-- Bit `l` of an index of `l + 1` bits is the lowest bit of the reversed index. -/
theorem bitReverse_two_pow_mul_add {l b i : Nat} (hb : b < 2) (hi : i < 2 ^ l) :
    bitReverse (l + 1) (2 ^ l * b + i) = 2 * bitReverse l i + b := by
  induction l generalizing i with
  | zero => simp [bitReverse, Nat.lt_one_iff.mp hi, Nat.mod_eq_of_lt hb]
  | succ l ih =>
    rw [Nat.pow_succ] at hi
    have hsplit : 2 ^ (l + 1) * b + i = 2 * (2 ^ l * b) + i := by rw [Nat.pow_succ']; ring
    have hlow : (2 ^ (l + 1) * b + i) % 2 = i % 2 := by omega
    have hhigh : (2 ^ (l + 1) * b + i) / 2 = 2 ^ l * b + i / 2 := by omega
    rw [bitReverse, hlow, hhigh, ih (by omega), bitReverse, Nat.pow_succ]
    ring

theorem bitReversed_succ {l : Nat} {x : List Bin} (h : x.length = 2 ^ (l + 1)) :
    bitReversed (l + 1) x = bitReversed l (evens x) ++ bitReversed l (odds x) := by
  rw [bitReversed, bitReversed, bitReversed, h, evens_length_of_two_pow h, odds_length_of_two_pow h, Nat.pow_succ,
    Nat.mul_two, List.range_add, List.map_append, List.map_map]
  refine congrArg₂ _ (List.map_congr_left fun i hi => ?_) (List.map_congr_left fun i hi => ?_)
  · have hrev := bitReverse_two_pow_mul_add Nat.two_pos (List.mem_range.mp hi)
    rw [Nat.mul_zero, Nat.zero_add] at hrev
    rw [hrev, Nat.add_zero, List.getD_eq_getElem?_getD, List.getD_eq_getElem?_getD, evens_getElem?]
  · have hrev := bitReverse_two_pow_mul_add Nat.one_lt_two (List.mem_range.mp hi)
    rw [Nat.mul_one] at hrev
    rw [Function.comp_apply, hrev, List.getD_eq_getElem?_getD, List.getD_eq_getElem?_getD, odds_getElem?]

@[simp] theorem bitReversed_length (l : Nat) (x : List Bin) : (bitReversed l x).length = x.length := by
  simp [bitReversed]

/-! The passes (42 R100). -/

section

variable (c : Config)

theorem blockPass_length {h blocks : Nat} {x : List Bin} (hx : x.length = blocks * (2 * h)) :
    (blockPass c (2 * h) blocks x).length = x.length := by
  induction blocks generalizing x with
  | zero => rfl
  | succ blocks ih =>
    rw [Nat.succ_mul] at hx
    rw [blockPass, List.length_append, combine_length, ih (by rw [List.length_drop]; omega)]
    simp only [List.length_take, List.length_drop]
    omega

/-- A pass over whole blocks treats the two parts of a sequence apart. -/
theorem blockPass_append {m blocks more : Nat} {u : List Bin} (v : List Bin) (hu : u.length = blocks * m) :
    blockPass c m (blocks + more) (u ++ v) = blockPass c m blocks u ++ blockPass c m more v := by
  induction blocks generalizing u with
  | zero =>
    rw [Nat.zero_mul, List.length_eq_zero_iff] at hu
    rw [hu, Nat.zero_add, blockPass, List.nil_append, List.nil_append]
  | succ blocks ih =>
    rw [Nat.succ_mul] at hu
    rw [Nat.succ_add, blockPass, blockPass, List.append_assoc, ← ih (by rw [List.length_drop]; omega),
      List.take_append_of_le_length (by omega), List.drop_append_of_le_length (by omega),
      List.drop_append_of_le_length (by omega), List.take_append_of_le_length (by rw [List.length_drop]; omega)]

/-- So do passes, as long as each part is a whole number of the longest blocks. -/
theorem passes_append {more h : Nat} {u v : List Bin} (hpos : 0 < h) (hu : 2 ^ more * h ∣ u.length)
    (hv : 2 ^ more * h ∣ v.length) :
    passes c more (2 * h) (u ++ v) = passes c more (2 * h) u ++ passes c more (2 * h) v := by
  induction more generalizing h u v with
  | zero => rfl
  | succ more ih =>
    rw [Nat.pow_succ, Nat.mul_assoc] at hu hv
    have hu' := (Nat.div_mul_cancel ((Nat.dvd_mul_left ..).trans hu)).symm
    have hv' := (Nat.div_mul_cancel ((Nat.dvd_mul_left ..).trans hv)).symm
    have hblocks : (u ++ v).length / (2 * h) = u.length / (2 * h) + v.length / (2 * h) := by
      rw [List.length_append, Nat.add_div_of_dvd_right ((Nat.dvd_mul_left ..).trans hu)]
    rw [passes, passes, passes, hblocks, blockPass_append c v hu']
    exact ih (by omega) (by rwa [blockPass_length c hu']) (by rwa [blockPass_length c hv'])

/-- The last of the passes. -/
theorem passes_succ_eq_blockPass (more m : Nat) (x : List Bin) :
    passes c (more + 1) m x =
      blockPass c (2 ^ more * m) ((passes c more m x).length / (2 ^ more * m)) (passes c more m x) := by
  induction more generalizing m x with
  | zero => rw [Nat.pow_zero, Nat.one_mul]; rfl
  | succ more ih => rw [passes, ih, Nat.pow_succ, Nat.mul_assoc]; rfl

/-- A pass over a sequence of one block. -/
theorem blockPass_one {h : Nat} {e o : List Bin} (he : e.length = h) (ho : o.length = h) :
    blockPass c (2 * h) 1 (e ++ o) = combine c (2 * h) e o := by
  have hhalf : 2 * h / 2 = h := Nat.mul_div_cancel_left h Nat.two_pos
  have hnone : (e ++ o).drop (2 * h) = [] := List.drop_eq_nil_of_le (by rw [List.length_append]; omega)
  rw [blockPass, blockPass, hhalf, hnone, List.append_nil, List.take_left' he, List.drop_left' he,
    List.take_of_length_le ho.le]

/-- The passes turn the bit-reversed sequence into the transform: those up to the last transform the two halves apart, which are
the bit-reversed even-indexed and odd-indexed elements, and the last one combines them. -/
theorem passes_bitReversed {d : Nat} {x : List Bin} (h : x.length = 2 ^ d) :
    passes c d 2 (bitReversed d x) = fft c x := by
  induction d generalizing x with
  | zero =>
    obtain ⟨b, rfl⟩ := List.length_eq_one_iff.mp h
    rfl
  | succ d ih =>
    have he := evens_length_of_two_pow h
    have ho := odds_length_of_two_pow h
    have hfe := fft_length_of_two_pow c he
    have hfo := fft_length_of_two_pow c ho
    have hhalves : passes c d 2 (bitReversed (d + 1) x) = fft c (evens x) ++ fft c (odds x) := by
      rw [bitReversed_succ h, passes_append c Nat.one_pos (by simp [he]) (by simp [ho]), ih he, ih ho]
    have hblocks : (fft c (evens x) ++ fft c (odds x)).length / (2 ^ d * 2) = 1 := by
      rw [List.length_append, hfe, hfo, ← Nat.mul_two, Nat.div_self (by positivity)]
    rw [passes_succ_eq_blockPass, hhalves, hblocks, fft_eq_combine c h, Nat.pow_succ, Nat.mul_comm,
      blockPass_one c hfe hfo]

end

/-- Settles O35: by induction on the number of passes, each one level of the recursion. -/
theorem iterativeScheduleGivesTheSameBits : Obligations.IterativeScheduleGivesTheSameBits := by
  intro c x h
  unfold fftIterative
  split
  · next hshort => exact (fft_of_length_le_one c hshort).symm
  · next hlong =>
    obtain ⟨d, hd⟩ := h.resolve_left (by omega)
    rw [hd, Nat.log2_two_pow, passes_bitReversed c hd]

end Sys2Proof.Machine
end

section
/-!
SUPPORT. The arithmetic around the transform (42_transform.md R95, R96, R102): products and quotients of finite patterns as one
rounding each, that a quotient by 1.0 is the dividend, and a bound of the angle through the two roundings that make it.
-/

namespace Sys2Proof.Machine

/-! Products and quotients of finite operands, zeros included, are one rounding. -/

theorem rn_zero (neg : Bool) {d : Nat} (hd : 0 < d) : rn neg 0 d = zero neg := by
  have hmag : rnMag 0 d = 0 := by simp [rnMag, spacing, nearestEven, hd]
  rw [rn, hmag, zero]

section

variable (c : Config) {a b : Binary64}

theorem fmul_eq_rn (ha : isFinite a = true) (hb : isFinite b = true) :
    fmul c a b = rn (isNeg a != isNeg b) (units a * units b) (2 ^ 1074) := by
  simp only [fmul, isNaN_of_isFinite ha, isNaN_of_isFinite hb, isInf_of_isFinite ha, isInf_of_isFinite hb, Bool.or_self,
    Bool.and_false, Bool.false_and, Bool.false_eq_true, if_false, Bool.or_eq_true, ← units_eq_zero_iff]
  split
  · next h => rw [Nat.mul_eq_zero.mpr h, rn_zero _ (pow_pos two_pos 1074)]
  · rfl

theorem fdiv_eq_rn (ha : isFinite a = true) (hb : isFinite b = true) (hb0 : isZero b = false) :
    fdiv c a b = rn (isNeg a != isNeg b) (units a * 2 ^ 1074) (units b) := by
  have hpos : 0 < units b := Nat.pos_of_ne_zero (mt (units_eq_zero_iff b).mp (by simp [hb0]))
  cases ha0 : isZero a
  · rw [fdiv_of_isFinite c ha hb ha0 hb0, decide_mul_value_neg ha0 hb0, natAbs_value, natAbs_value]
  · rw [fdiv_of_isZero_left c ha0 hb hb0, (units_eq_zero_iff a).mpr ha0, Nat.zero_mul, rn_zero _ hpos]

end

/-! A quotient by 1.0. -/

/-- Finite patterns of one sign and magnitude are the same (40 R66). -/
theorem eq_of_units {a b : Binary64} (hneg : isNeg a = isNeg b) (hunits : units a = units b) : a = b := by
  have hexp : expField a = expField b := by
    by_contra hne
    rcases Nat.lt_or_gt_of_ne hne with h | h
    · exact (units_lt_units h).ne hunits
    · exact (units_lt_units h).ne' hunits
  refine eq_of_fields hneg hexp ?_
  by_cases h0 : expField b = 0
  · rwa [units_of_expField_eq_zero (hexp.trans h0), units_of_expField_eq_zero h0] at hunits
  · rw [units_of_expField_ne_zero (hexp.trans_ne h0), units_of_expField_ne_zero h0, hexp] at hunits
    exact Nat.add_left_cancel (Nat.eq_of_mul_eq_mul_right (Nat.two_pow_pos _) hunits)

theorem units_lt_overflowUnits {a : Binary64} (h : isFinite a = true) : units a < overflowUnits := by
  have hfrac := fracField_lt a
  have hlt := expField_lt a
  have hne : expField a ≠ 2047 := by simpa [isFinite] using h
  by_cases h0 : expField a = 0
  · rw [units_of_expField_eq_zero h0]
    exact hfrac.trans (by decide +kernel)
  · rw [units_of_expField_ne_zero h0]
    calc (2 ^ 52 + fracField a) * 2 ^ (expField a - 1) ≤ (2 ^ 53 - 1) * 2 ^ 2045 :=
          Nat.mul_le_mul (by omega) (Nat.pow_le_pow_right Nat.two_pos (by omega))
      _ < overflowUnits := by decide +kernel

/-- Rounding gives back what is already a value (40 R67). -/
theorem rn_units {a : Binary64} (h : isFinite a = true) {d : Nat} (hd : 0 < d) : rn (isNeg a) (units a * d) d = a := by
  have hlt : units a * d < overflowUnits * d := Nat.mul_lt_mul_of_pos_right (units_lt_overflowUnits h) hd
  have hdvd : 2 ^ spacing (units a) ∣ units a := by
    by_cases hs : spacing (units a) = 0
    · simp [hs]
    · exact two_pow_dvd_units (two_pow_spacing_le hs)
  refine eq_of_units (isNeg_rn ..) (Nat.eq_of_mul_eq_mul_right hd (units_rn_of_dvd hd _ hlt ?_))
  rw [Nat.mul_div_cancel _ hd, Nat.mul_comm d]
  exact Nat.mul_dvd_mul_right hdvd d

theorem units_ONE : units ONE = 2 ^ 1074 := by decide +kernel

/-- Division by 1.0 changes nothing (42 R102). -/
theorem fdiv_ONE (c : Config) {a : Binary64} (h : isNaN a = false) : fdiv c a ONE = a := by
  have hneg : isNeg ONE = false := by decide
  have hfinite : isFinite ONE = true := by decide
  cases hinf : isInf a
  · have ha := isFinite_of_not h hinf
    rw [fdiv_eq_rn c ha hfinite (by decide), hneg, Bool.bne_false, units_ONE, rn_units ha (pow_pos two_pos 1074)]
  · rw [fdiv_of_isInf_left c hinf hfinite, hneg, Bool.xor_false, ← eq_infinity_of_isInf hinf]

theorem i2f_one : i2f 1 = ONE := by decide +kernel

/-- Settles O34: `ifft` maps over the transform, and of one element it is two negations and divisions by 1.0. -/
theorem inverseTransformByConjugation : Obligations.InverseTransformByConjugation := by
  intro c
  refine ⟨fun x => List.length_map _, fun x i b h => ?_, fun b hre him => ?_⟩
  · exact (List.getElem?_map ..).trans (congrArg (Option.map _) h)
  · have hone : ifft c [b] = [negateAndDivide c 1 (conjugate b)] := rfl
    rw [hone, negateAndDivide, conjugate, fneg_fneg, Nat.cast_one, i2f_one, fdiv_ONE c hre, fdiv_ONE c him]

/-! The angle (42 R95). -/

theorem value_of_not_isNeg {a : Binary64} (h : isNeg a = false) : value a = units a := by
  rw [value, h, if_neg Bool.false_ne_true]

/-- A finite pattern of sign + and at most `n` units. -/
structure PosAtMost (n : Nat) (a : Binary64) : Prop where
  isFinite : isFinite a = true
  isNeg : isNeg a = false
  units_le : units a ≤ n

/-- Rounding does not pass a value: what is at most `m * 2^k` units is rounded to at most that. -/
theorem rn_posAtMost {n d m k : Nat} (hd : 0 < d) (hm : m < 2 ^ 53) (hk : k ≤ 2044) (h : n ≤ m * 2 ^ k * d) :
    PosAtMost (m * 2 ^ k) (rn false n d) := by
  have hpow : m * 2 ^ k < 2 ^ (53 + k) := by
    rw [Nat.pow_add]
    exact Nat.mul_lt_mul_of_pos_right hm (Nat.two_pow_pos k)
  have hn : n < overflowUnits * d :=
    lt_overflowUnits (by omega) (h.trans_lt (Nat.mul_lt_mul_of_pos_right hpow hd))
  refine ⟨isFinite_rn hd false hn, isNeg_rn .., ?_⟩
  obtain ⟨-, hunits⟩ := units_rn_scaled false hm hk
  obtain ⟨hnear, -⟩ := rn_nearest hd false hn (rn false (m * 2 ^ k) 1)
  rw [hunits] at hnear
  by_contra hlt
  have := Nat.mul_lt_mul_of_pos_right (not_le.mp hlt) hd
  simp only [← Int.natCast_mul] at hnear
  generalize units (rn false n d) * d = u, m * 2 ^ k * d = v at *
  omega

theorem mul_two_pow_add_mul (m j k d : Nat) : m * 2 ^ (j + k) * d = m * 2 ^ j * (2 ^ k * d) := by
  rw [Nat.pow_add, ← Nat.mul_assoc, Nat.mul_assoc]

/-- A natural number of at most 53 bits is converted exactly. -/
theorem i2f_natCast {n : Nat} (h : n < 2 ^ 53) :
    isFinite (i2f n) = true ∧ isNeg (i2f n) = false ∧ units (i2f n) = n * 2 ^ 1074 := by
  have hsign : decide ((n : Int) < 0) = false := decide_eq_false (by omega)
  obtain ⟨hfinite, hunits⟩ := units_rn_scaled false h (k := 1074) (by decide)
  rw [i2f, hsign, Int.natAbs_natCast]
  exact ⟨hfinite, isNeg_rn .., hunits⟩

/-- The lengths of sub-transforms are converted exactly. -/
theorem i2f_two_pow {j : Nat} (h : j < 53) :
    isFinite (i2f (2 ^ j : Nat)) = true ∧ isNeg (i2f (2 ^ j : Nat)) = false ∧ isZero (i2f (2 ^ j : Nat)) = false ∧
      units (i2f (2 ^ j : Nat)) = 2 ^ j * 2 ^ 1074 := by
  obtain ⟨hfinite, hneg, hunits⟩ := i2f_natCast (Nat.pow_lt_pow_right Nat.one_lt_two h)
  refine ⟨hfinite, hneg, ?_, hunits⟩
  rw [← Bool.not_eq_true, ← units_eq_zero_iff, hunits]
  exact (Nat.mul_pos (Nat.two_pow_pos j) (pow_pos two_pos 1074)).ne'

/-- The significand of `PI_D` and `TWO_PI_D` (40 R77). -/
def piSignificand : Nat := 0x1921FB54442D18

theorem units_PI_D : units PI_D = piSignificand * 2 ^ 1023 := by decide +kernel
theorem units_TWO_PI_D : units TWO_PI_D = piSignificand * 2 ^ 1024 := by decide +kernel

section

variable (c : Config) {i k : Nat} (hi : i ≤ 29) (hk : k < 2 ^ i)
include hi hk

/-- `2*pi * k` is at most one unit in the last place of the significand less than `2*pi * 2^i`: `k / 2^i` is at most `1 - 2^-i`,
and `2^i` is less than the significand. -/
theorem fmul_TWO_PI_D_posAtMost : PosAtMost ((piSignificand - 1) * 2 ^ (i + 1024)) (fmul c TWO_PI_D (i2f k)) := by
  have hi' : 2 ^ i ≤ 2 ^ 29 := Nat.pow_le_pow_right Nat.two_pos hi
  obtain ⟨hfinite, hneg, hunits⟩ := i2f_natCast (n := k) (by omega)
  have hpos : isNeg TWO_PI_D = false := by decide
  have hsig : piSignificand * k ≤ (piSignificand - 1) * 2 ^ i := by
    unfold piSignificand
    omega
  rw [fmul_eq_rn c (by decide) hfinite, hpos, hneg, bne_self_eq_false, units_TWO_PI_D, hunits]
  refine rn_posAtMost (pow_pos two_pos 1074) (by decide) (by omega) ?_
  rw [Nat.mul_mul_mul_comm, mul_two_pow_add_mul]
  exact Nat.mul_le_mul_right _ hsig

/-- So the angle is at most one unit in the last place less than `PI_D`. -/
theorem angle_posAtMost : PosAtMost ((piSignificand - 1) * 2 ^ 1023) (angle c k (2 ^ (i + 1))) := by
  obtain ⟨hfinite, hneg, hzero, hunits⟩ := i2f_two_pow (j := i + 1) (by omega)
  obtain ⟨hpfinite, hpneg, hpunits⟩ := fmul_TWO_PI_D_posAtMost c hi hk
  have hpos : 0 < 2 ^ (i + 1) * 2 ^ 1074 := Nat.mul_pos (Nat.two_pow_pos _) (pow_pos two_pos 1074)
  have hexp : i + 1024 = 1023 + (i + 1) := by omega
  rw [angle, fdiv_eq_rn c hpfinite hfinite hzero, hpneg, hneg, bne_self_eq_false, hunits]
  refine rn_posAtMost hpos (by decide) (by decide) ?_
  rw [← mul_two_pow_add_mul, ← hexp]
  exact Nat.mul_le_mul_right _ hpunits

end

theorem i2f_zero : i2f 0 = PZERO := by decide +kernel

theorem fmul_TWO_PI_D_PZERO (c : Config) : fmul c TWO_PI_D PZERO = PZERO := by
  have hunits : units PZERO = 0 := by decide
  rw [fmul_eq_rn c (by decide) (by decide), hunits, Nat.mul_zero, rn_zero _ (pow_pos two_pos 1074)]
  decide

/-- The angle of index 0 is `+0`, whatever the length. -/
theorem angle_zero (c : Config) {j : Nat} (h : j < 53) : angle c 0 (2 ^ j) = PZERO := by
  obtain ⟨hfinite, hneg, hzero, -⟩ := i2f_two_pow h
  rw [angle, Nat.cast_zero, i2f_zero, fmul_TWO_PI_D_PZERO, fdiv_of_isZero_left c (by decide) hfinite hzero, hneg]
  decide

/-- Settles O32: the angle is a value below `PI_D`, and at angle `+0` the cosine and sine are given (40 R78). -/
theorem anglesAndFirstTwiddle : Obligations.AnglesAndFirstTwiddle := by
  intro c j k hj hj' hk
  obtain ⟨i, rfl⟩ := Nat.exists_eq_add_of_le' hj
  have hi : i ≤ 29 := by omega
  obtain ⟨hfinite, hneg, hunits⟩ := angle_posAtMost c hi hk
  have hzero := angle_zero c (j := i + 1) (by omega)
  obtain ⟨hcos, hsin, -⟩ := trigProperties c
  refine ⟨hfinite, hneg, ?_, hzero, ?_⟩
  · have hlt : units (angle c k (2 ^ (i + 1))) < units PI_D := by
      rw [units_PI_D]
      exact hunits.trans_lt (Nat.mul_lt_mul_of_pos_right (by decide) (pow_pos two_pos 1023))
    rw [flt_iff (isNaN_of_isFinite hfinite) (by decide), value_of_not_isNeg hneg, value_of_not_isNeg (by decide)]
    exact Int.ofNat_lt.mpr hlt
  · rw [twiddle, hzero, hcos, hsin]
    rfl

end Sys2Proof.Machine
end

section
/-!
SUPPORT. The commands `FFT` and `IFFT` (42_transform.md R101, R103): each stores in place a sequence that is no longer than `LEN`,
behind the same two checks, so one lemma about `storeBins` gives the coefficients and one the frame.
-/

namespace Sys2Proof.Machine

/-! A stored sequence. -/

section

variable (s : State) {x : List Bin} {i : Nat}

@[simp] theorem finish_bin (i : Nat) : (finish s).bin i = s.bin i := rfl

theorem finish_storeBins_bin_of_lt (h : i < x.length) : x[i]? = some ((finish (s.storeBins x)).bin i) := by
  rw [finish_bin, storeBins_bin, List.getElem?_eq_getElem h, Option.getD_some]

theorem finish_storeBins_bin_of_le (h : x.length ≤ i) : (finish (s.storeBins x)).bin i = s.bin i := by
  rw [finish_bin, storeBins_bin, List.getElem?_eq_none h, Option.getD_none]

theorem finish_storeBins_frame (x : List Bin) :
    (((finish (s.storeBins x)).setRe s.re).setIm s.im).setStatus s.status = s := by
  apply State.eq_of_fields <;> simp

end

/-! The completions (30 R58). -/

theorem ifft_length (c : Config) {x : List Bin} (h : x.length = 0 ∨ ispow2 x.length = true) :
    (ifft c x).length = x.length := by
  rw [ifft, List.length_map, fft_length c (by rwa [List.length_map]), List.length_map]

/-- `IFFT` with both its checks met (42 R103). -/
theorem exec_ifft_of_pow2 {s : State} (hcap : s.len.toNat ≤ s.cap) (hlen : s.len.toNat = 0 ∨ ispow2 s.len.toNat = true) :
    exec .ifft s = .next (finish (inverseTransform s)) := by
  have hcode : ifftCode s = .ok (inverseTransform s) := by
    rcases ifftCode_cases s with ⟨hc, -⟩ | ⟨-, h0, hp, -⟩ | ⟨-, -, h⟩
    · omega
    · simp [h0, hp] at hlen
    · exact h
  rw [exec, execIfft, hcode, complete]

/-- Settles O42: the sequence stored is the transform of the coefficients below `LEN`. -/
theorem fftCompletes : Obligations.FftCompletes := by
  intro s hcap hlen
  have hlength : (fft s.config (s.bins s.len.toNat)).length = s.len.toNat := by
    rw [fft_length s.config (by rwa [State.bins_length]), State.bins_length]
  exact ⟨_, exec_fft_of_pow2 hcap hlen, fun i hi => finish_storeBins_bin_of_lt s (hi.trans_eq hlength.symm),
    fun i hi => finish_storeBins_bin_of_le s (hlength.trans_le hi), rfl, finish_storeBins_frame s _⟩

/-- Settles O43: the sequence stored is the inverse transform of the coefficients below `LEN`. -/
theorem ifftCompletes : Obligations.IfftCompletes := by
  intro s hcap hlen
  have hlength : (ifft s.config (s.bins s.len.toNat)).length = s.len.toNat := by
    rw [ifft_length s.config (by rwa [State.bins_length]), State.bins_length]
  exact ⟨_, exec_ifft_of_pow2 hcap hlen, fun i hi => finish_storeBins_bin_of_lt s (hi.trans_eq hlength.symm),
    fun i hi => finish_storeBins_bin_of_le s (hlength.trans_le hi), rfl, finish_storeBins_frame s _⟩

/-! What the two can answer. -/

/-- Behind the two checks of `FFT` and `IFFT` a completion is a fault taken in `s`, or the end of the writes. -/
theorem complete_powerOfTwoLen_next {n : Reg32} {s t : State} {write : State → State}
    (h : complete (withinCap n s fun s => powerOfTwoLen s fun s => .ok (write s)) s = .next t) :
    (∃ f, t = raise f s) ∨ t = finish (write s) := by
  rcases withinCap_cases s n (fun s => powerOfTwoLen s fun s => .ok (write s)) with ⟨-, hr⟩ | ⟨-, hr⟩ <;> rw [hr] at h
  · cases h
    exact .inl ⟨_, rfl⟩
  · rcases powerOfTwoLen_cases s (fun s => .ok (write s)) with ⟨-, -, hr⟩ | ⟨-, hr⟩ <;> rw [hr] at h <;> cases h
    · exact .inl ⟨_, rfl⟩
    · exact .inr rfl

/-- A fault, or a sequence no longer than `LEN` stored in place. -/
theorem exec_transform_next {k : Instr} {s t : State} (hk : k = .fft ∨ k = .ifft) (h : exec k s = .next t) :
    (∃ f, t = raise f s) ∨ ∃ x : List Bin, x.length ≤ s.len.toNat ∧ t = finish (s.storeBins x) := by
  rcases hk with rfl | rfl
  · exact (complete_powerOfTwoLen_next (write := forwardTransform) h).imp_right fun ht =>
      ⟨_, (fft_length_le _ _).trans_eq (State.bins_length ..), ht⟩
  · exact (complete_powerOfTwoLen_next (write := inverseTransform) h).imp_right fun ht =>
      ⟨_, (ifft_length_le _ _).trans_eq (State.bins_length ..), ht⟩

/-- Settles O56: a fault changes `STATUS` alone, and a sequence no longer than `LEN` changes no coefficient from `LEN` on. -/
theorem transformFrame : Obligations.TransformFrame := by
  intro k s t hk h
  rcases exec_transform_next hk h with ⟨f, rfl⟩ | ⟨x, hx, rfl⟩
  · exact ⟨rfl, fun _ => rfl, fun _ _ => ⟨rfl, rfl⟩⟩
  · refine ⟨finish_storeBins_frame s x, fun _ => rfl, fun i hi => ?_⟩
    have hbin := finish_storeBins_bin_of_le s (hx.trans hi)
    exact ⟨congrArg Bin.re hbin, congrArg Bin.im hbin⟩

end Sys2Proof.Machine
end

section
/-!
SUPPORT. The magnitude threshold gate (43_gate.md R110 to R114): the sign of a magnitude through its four operations, the
maximum by induction along `MAGMAX`'s loop, the coefficients after `GATE`'s writes, and the three commands as one run.
-/

namespace Sys2Proof.Machine

/-! The sign of a magnitude (43 R110). -/

/-- A value that is not negative, not even `-0`: no NaN, and of sign +. -/
structure NonNegative (a : Binary64) : Prop where
  isNaN : isNaN a = false
  isNeg : isNeg a = false

theorem NonNegative.value_nonneg {a : Binary64} (h : NonNegative a) : 0 ≤ value a := by
  rw [value_of_not_isNeg h.isNeg]
  exact Int.natCast_nonneg _

theorem NonNegative.ne_NZERO {a : Binary64} (h : NonNegative a) : a ≠ NZERO := by
  rintro rfl
  exact absurd h.isNeg (by decide)

theorem nonNegative_PZERO : NonNegative PZERO := ⟨by decide, by decide⟩

theorem nonNegative_rn {neg : Bool} (h : neg = false) (n d : Nat) : NonNegative (rn neg n d) :=
  ⟨isNaN_rn .., (isNeg_rn ..).trans h⟩

theorem nonNegative_infinity : NonNegative (infinity false) := ⟨isNaN_infinity false, isNeg_infinity false⟩

section

variable (c : Config) {a b : Binary64}

/-- A square has the sign of two equal signs. -/
theorem fmul_self_nonNegative (h : isNaN a = false) : NonNegative (fmul c a a) := by
  cases hinf : isInf a
  · have ha := isFinite_of_not h hinf
    rw [fmul_eq_rn c ha ha]
    exact nonNegative_rn (bne_self_eq_false _) ..
  · rw [fmul_of_isInf c hinf h (isZero_of_isInf hinf), Bool.xor_self]
    exact nonNegative_infinity

/-- Of two such values neither opposite infinities nor two `-0` can meet. -/
theorem fadd_nonNegative (ha : NonNegative a) (hb : NonNegative b) : NonNegative (fadd c a b) := by
  cases hia : isInf a
  · have hfa := isFinite_of_not ha.isNaN hia
    cases hib : isInf b
    · rw [fadd_of_isFinite c hfa (isFinite_of_not hb.isNaN hib)]
      split
      · rw [if_neg fun h => ha.ne_NZERO h.1]
        exact nonNegative_PZERO
      · exact nonNegative_rn (decide_eq_false (not_lt.mpr (Int.add_nonneg ha.value_nonneg hb.value_nonneg))) ..
    · rwa [fadd_of_isInf_right c hfa hib]
  · rwa [fadd_of_isInf_left c hia hb.isNaN fun _ => ha.isNeg.trans hb.isNeg.symm]

theorem fsqrt_nonNegative (ha : NonNegative a) : NonNegative (fsqrt c a) := by
  cases hinf : isInf a
  · cases hzero : isZero a
    · obtain ⟨sig, t, -, -, -, -, hroot⟩ := fsqrt_of_pos c (isFinite_of_not ha.isNaN hinf) hzero ha.isNeg
      rw [hroot]
      exact nonNegative_rn rfl ..
    · rwa [fsqrt_of_isZero c hzero]
  · rw [eq_infinity_of_isInf hinf, ha.isNeg, fsqrt_infinity]
    exact nonNegative_infinity

end

theorem mag_nonNegative (c : Config) {b : Bin} (hre : isNaN b.re = false) (him : isNaN b.im = false) :
    NonNegative (mag c b) :=
  fsqrt_nonNegative c (fadd_nonNegative c (fmul_self_nonNegative c hre) (fmul_self_nonNegative c him))

/-- A NaN part makes its square, the sum and the root a NaN. -/
theorem isNaN_mag (c : Config) {b : Bin} (h : isNaN b.re = true ∨ isNaN b.im = true) : isNaN (mag c b) = true := by
  have hsquare : isNaN (fmul c b.re b.re) = true ∨ isNaN (fmul c b.im b.im) = true :=
    h.imp (fun hre => by rw [fmul_of_isNaN c (.inl hre), isNaN_nanResult])
      fun him => by rw [fmul_of_isNaN c (.inl him), isNaN_nanResult]
  rw [mag, fadd_of_isNaN c hsquare, fsqrt_of_invalid c (.inl (isNaN_nanResult ..)), isNaN_nanResult]

/-- Every magnitude is a NaN, by a NaN part, or a value that is not negative. -/
theorem mag_cases (c : Config) (b : Bin) :
    ((isNaN b.re = true ∨ isNaN b.im = true) ∧ isNaN (mag c b) = true) ∨
      (¬(isNaN b.re = true ∨ isNaN b.im = true) ∧ NonNegative (mag c b)) := by
  by_cases h : isNaN b.re = true ∨ isNaN b.im = true
  · exact .inl ⟨h, isNaN_mag c h⟩
  · obtain ⟨hre, him⟩ : isNaN b.re = false ∧ isNaN b.im = false := by simpa using h
    exact .inr ⟨h, mag_nonNegative c hre him⟩

theorem mag_nonNegative_of_not_isNaN {c : Config} {b : Bin} (h : isNaN (mag c b) = false) : NonNegative (mag c b) := by
  rcases mag_cases c b with ⟨-, hnan⟩ | ⟨-, hmag⟩
  · simp [hnan] at h
  · exact hmag

/-- Settles O31: the two cases of `mag_cases` exclude one another. -/
theorem magnitudeIsNaNOrNonNegative : Obligations.MagnitudeIsNaNOrNonNegative := by
  intro c b
  refine ⟨?_, fun h => (mag_nonNegative_of_not_isNaN h).isNeg⟩
  rcases mag_cases c b with ⟨hpart, hnan⟩ | ⟨hpart, hmag⟩
  · exact iff_of_true hnan hpart
  · exact iff_of_false (by simp [hmag.isNaN]) hpart

/-- No magnitude is below a zero (43 R114: "0 < 0 is false"). -/
theorem not_flt_mag_zero (c : Config) (b : Bin) {t : Binary64} (h : isZero t = true) : flt (mag c b) t = false := by
  rcases mag_cases c b with ⟨-, hnan⟩ | ⟨-, hmag⟩
  · exact flt_of_isNaN (.inl hnan)
  · exact flt_of_le (((value_eq_zero_iff t).mpr h).trans_le hmag.value_nonneg)

/-- The magnitude of a bin of two zeros, whatever their signs. -/
theorem mag_of_isZero (c : Config) {b : Bin} (hre : isZero b.re = true) (him : isZero b.im = true) : mag c b = PZERO := by
  have hsquare {a : Binary64} (ha : isZero a = true) : fmul c a a = PZERO := by
    rw [fmul_of_isZero c ha (isFinite_of_isZero ha), Bool.xor_self]
    rfl
  have hsum : fadd c PZERO PZERO = PZERO := by rw [fadd_of_isFinite c (by decide) (by decide)]; decide
  rw [mag, hsquare hre, hsquare him, hsum, fsqrt_of_isZero c (by decide)]

/-! The maximum (43 R111). -/

theorem flt_eq_true_iff {a b : Binary64} :
    flt a b = true ↔ isNaN a = false ∧ isNaN b = false ∧ value a < value b := by
  simp [flt, and_assoc]

/-- What is not above `r` is not above anything greater. -/
theorem not_flt_of_flt {r m b : Binary64} (hrm : flt r m = true) (hrb : flt r b = false) : flt m b = false := by
  obtain ⟨hr, -, hlt⟩ := flt_eq_true_iff.mp hrm
  cases hb : isNaN b
  · refine flt_of_le (le_of_not_gt fun hmb => ?_)
    simp [(flt_iff hr hb).mpr (hlt.trans hmb)] at hrb
  · exact flt_of_isNaN (.inr hb)

theorem flt_irrefl (a : Binary64) : flt a a = false := flt_of_le le_rfl

/-- `r` is the largest of `+0` and the magnitudes of `x` that are not NaN (no NaN is above `r`, by 40 R74). -/
structure IsLargestMag (c : Config) (x : List Bin) (r : Binary64) : Prop where
  nonNegative : NonNegative r
  not_below : ∀ b ∈ x, flt r (mag c b) = false
  attained : r = PZERO ∨ ∃ b ∈ x, r = mag c b

/-- One turn of the loop: the accumulator is replaced by a greater magnitude, or kept. -/
theorem IsLargestMag.concat {c : Config} {x : List Bin} {r : Binary64} (h : IsLargestMag c x r) (b : Bin) :
    IsLargestMag c (x ++ [b]) (largerMag c r b) := by
  unfold largerMag fgt
  split
  · next hlt =>
    obtain ⟨-, hnan, -⟩ := flt_eq_true_iff.mp hlt
    have hbelow : ∀ d ∈ x, flt (mag c b) (mag c d) = false := fun d hd => not_flt_of_flt hlt (h.not_below d hd)
    exact ⟨mag_nonNegative_of_not_isNaN hnan,
      List.forall_mem_append.mpr ⟨hbelow, List.forall_mem_singleton.mpr (flt_irrefl _)⟩, .inr ⟨b, by simp, rfl⟩⟩
  · next hlt =>
    exact ⟨h.nonNegative,
      List.forall_mem_append.mpr ⟨h.not_below, List.forall_mem_singleton.mpr (Bool.eq_false_of_not_eq_true hlt)⟩,
      h.attained.imp_right fun ⟨d, hd, hr⟩ => ⟨d, List.mem_append_left _ hd, hr⟩⟩

theorem maxMag_concat (c : Config) (x : List Bin) (b : Bin) : maxMag c (x ++ [b]) = largerMag c (maxMag c x) b := by
  simp [maxMag]

theorem maxMag_isLargest (c : Config) (x : List Bin) : IsLargestMag c x (maxMag c x) := by
  induction x using List.reverseRecOn with
  | nil => exact ⟨nonNegative_PZERO, by simp, .inl rfl⟩
  | append_singleton x b ih => exact maxMag_concat c x b ▸ ih.concat b

theorem State.mem_bins {s : State} {n : Nat} {b : Bin} : b ∈ s.bins n ↔ ∃ i < n, s.bin i = b := by simp [State.bins]

/-- The maximum that `MAGMAX` finds in `s`. -/
def State.largestMag (s : State) : Binary64 := maxMag s.config (s.bins s.len.toNat)

theorem State.largestMag_isLargest (s : State) : IsLargestMag s.config (s.bins s.len.toNat) s.largestMag :=
  maxMag_isLargest ..

theorem exec_magmax_of_le {s : State} (h : s.len.toNat ≤ s.cap) :
    exec .magmax s = .next (finish (s.setMaxmag s.largestMag)) :=
  complete_withinCap_of_le h fun s => s.setMaxmag s.largestMag

/-- Settles O44: the loop's invariant, with the magnitudes named by their index. -/
theorem magmaxCompletes : Obligations.MagmaxCompletes := by
  intro s h
  obtain ⟨⟨hnan, hneg⟩, hbelow, hattained⟩ := s.largestMag_isLargest
  refine ⟨_, exec_magmax_of_le h, hnan, hneg, fun i hi => hbelow _ (State.mem_bins.mpr ⟨i, hi, rfl⟩),
    hattained.imp_right ?_, rfl, rfl⟩
  rintro ⟨b, hb, hmax⟩
  obtain ⟨i, hi, rfl⟩ := State.mem_bins.mp hb
  exact ⟨i, hi, hmax⟩

/-! The threshold (43 R112). -/

theorem exec_thrset (s : State) : exec .thrset s = .next (finish (s.setThr (fmul s.config s.thrf s.maxmag))) := rfl

/-- Settles O45: `THRSET` has no check, and its one write is of `THR`. -/
theorem thrsetCompletes : Obligations.ThrsetCompletes := fun s => ⟨_, exec_thrset s, rfl, rfl, rfl⟩

/-! The gate (43 R113). -/

section

variable (s : State) (i : Nat)

theorem gateBins_readRe :
    (gateBins s).readRe i =
      if i < s.len.toNat ∧ flt (mag s.config (s.bin i)) s.thr = true then PZERO else s.readRe i := by
  simp [gateBins, State.readRe, Mem.read_fillAt, gated]

theorem gateBins_readIm :
    (gateBins s).readIm i =
      if i < s.len.toNat ∧ flt (mag s.config (s.bin i)) s.thr = true then PZERO else s.readIm i := by
  simp [gateBins, State.readIm, Mem.read_fillAt, gated]

theorem gateBins_bin :
    (gateBins s).bin i =
      if i < s.len.toNat ∧ flt (mag s.config (s.bin i)) s.thr = true then { re := PZERO, im := PZERO } else s.bin i := by
  rw [State.bin, gateBins_readRe, gateBins_readIm]
  split <;> rfl

theorem gateBins_bin_of_kept {i : Nat} (h : s.len.toNat ≤ i ∨ flt (mag s.config (s.bin i)) s.thr = false) :
    (gateBins s).bin i = s.bin i := by
  rw [gateBins_bin, if_neg]
  rintro ⟨hi, hlt⟩
  rcases h with hle | hkept
  · exact absurd hi (Nat.not_lt.mpr hle)
  · simp [hkept] at hlt

theorem finish_gateBins_frame : (((finish (gateBins s)).setRe s.re).setIm s.im).setStatus s.status = s := by
  apply State.eq_of_fields <;> simp

end

theorem exec_gate_of_le {s : State} (h : s.len.toNat ≤ s.cap) : exec .gate s = .next (finish (gateBins s)) :=
  complete_withinCap_of_le h gateBins

/-- Settles O46: the indices filled are those below `LEN` whose magnitude is below `THR`. -/
theorem gateCompletes : Obligations.GateCompletes := fun s h =>
  ⟨_, exec_gate_of_le h, gateBins_bin s, rfl, finish_gateBins_frame s⟩

/-- Settles O57: a fault changes `STATUS` alone, and the writes behind the check leave the rest alone. -/
theorem gateFrame : Obligations.GateFrame := by
  refine ⟨fun s t h => ?_, fun s t h => ?_, fun s t h => ?_⟩
  · rcases complete_withinCap_next (write := fun s => s.setMaxmag s.largestMag) h with ⟨f, rfl⟩ | ⟨-, rfl⟩ <;>
      exact ⟨rfl, fun _ => rfl, fun _ => rfl, fun _ => rfl⟩
  · cases (exec_thrset s).symm.trans h
    exact ⟨rfl, fun _ => rfl, fun _ => rfl, fun _ => rfl⟩
  · rcases complete_withinCap_next (write := gateBins) h with ⟨f, rfl⟩ | ⟨-, rfl⟩
    · exact ⟨rfl, fun _ => rfl, fun _ _ => ⟨rfl, rfl⟩⟩
    · refine ⟨finish_gateBins_frame s, gateBins_readSmp s, fun i hi => ?_⟩
      have hbin := gateBins_bin_of_kept s hi
      exact ⟨congrArg Bin.re hbin, congrArg Bin.im hbin⟩

/-! `MAGMAX; THRSET; GATE` as one run (43 R114). -/

/-- What `GATE` finds after `MAGMAX; THRSET`, but for `STATUS`. -/
def withThreshold (s : State) : State := (s.setMaxmag s.largestMag).setThr (fmul s.config s.thrf s.largestMag)

@[simp] theorem withThreshold_len (s : State) : (withThreshold s).len = s.len := rfl
@[simp] theorem withThreshold_thr (s : State) : (withThreshold s).thr = fmul s.config s.thrf s.largestMag := rfl

/-- The completions in between show only in `STATUS`, which the last one writes again. -/
theorem runCommands_magmax_thrset_gate {s : State} (h : s.len.toNat ≤ s.cap) :
    runCommands [.magmax, .thrset, .gate] s = .next (finish (gateBins (withThreshold s))) := by
  have hthrset : exec .thrset (finish (s.setMaxmag s.largestMag)) = .next (finish (withThreshold s)) := by
    rw [exec_thrset]
    exact congrArg Host.Outcome.next (finish_finish (withThreshold s))
  have hgate : exec .gate (finish (withThreshold s)) = .next (finish (gateBins (withThreshold s))) := by
    rw [exec_gate_of_le (s := finish (withThreshold s)) h]
    exact congrArg Host.Outcome.next (finish_finish (gateBins (withThreshold s)))
  rw [runCommands_cons (exec_magmax_of_le h), runCommands_cons hthrset, runCommands_cons hgate, runCommands]

/-- Under a threshold that is a zero nothing is gated. -/
theorem gateBins_of_isZero_thr {s : State} (h : isZero s.thr = true) : sameRe s (gateBins s) ∧ sameIm s (gateBins s) :=
  have hbin (i : Nat) : (gateBins s).bin i = s.bin i := gateBins_bin_of_kept s (.inr (not_flt_mag_zero _ _ h))
  ⟨fun i => congrArg Bin.re (hbin i), fun i => congrArg Bin.im (hbin i)⟩

/-- Multiplication by 1.0 changes nothing. -/
theorem fmul_ONE_left (c : Config) {a : Binary64} (h : isNaN a = false) : fmul c ONE a = a := by
  have hneg : isNeg ONE = false := by decide
  have hfinite : isFinite ONE = true := by decide
  have hright : fmul c a ONE = a := by
    cases hinf : isInf a
    · have ha := isFinite_of_not h hinf
      rw [fmul_eq_rn c ha hfinite, hneg, Bool.bne_false, units_ONE, rn_units ha (pow_pos two_pos 1074)]
    · rw [fmul_of_isInf c hinf (by decide) (by decide), hneg, Bool.xor_false, ← eq_infinity_of_isInf hinf]
  rw [(fmul_comm c a ONE).symm_eq (by rw [hright, h]), hright]

/-- A finite fraction of `+0` is a zero. -/
theorem isZero_fmul_PZERO (c : Config) {a : Binary64} (h : isFinite a = true) : isZero (fmul c a PZERO) = true := by
  have hleft : fmul c PZERO a = zero (isNeg PZERO ^^ isNeg a) := fmul_of_isZero c (by decide) h
  rw [(fmul_comm c PZERO a).symm_eq (by rw [hleft, isNaN_zero]), hleft, isZero_zero]

/-- On a silent channel the maximum is `+0`. -/
theorem State.largestMag_of_isZero {s : State}
    (h : ∀ i, i < s.len.toNat → isZero (s.readRe i) = true ∧ isZero (s.readIm i) = true) : s.largestMag = PZERO := by
  rcases s.largestMag_isLargest.attained with hzero | ⟨b, hb, hmax⟩
  · exact hzero
  · obtain ⟨i, hi, rfl⟩ := State.mem_bins.mp hb
    obtain ⟨hre, him⟩ := h i hi
    rw [hmax, mag_of_isZero s.config (b := s.bin i) hre him]

/-- Settles O52: with fraction `+0` and on a silent channel the threshold is a zero, with fraction 1 the maximum. -/
theorem gateEdgeCases : Obligations.GateEdgeCases := by
  intro s h
  have hmax := s.largestMag_isLargest.nonNegative
  refine ⟨_, runCommands_magmax_thrset_gate h, fun hthrf (hfinite : isFinite s.largestMag = true) => ?_, fun hthrf => ?_,
    fun hfinite hsilent => ?_⟩
  · have hthr : fmul s.config s.thrf s.largestMag = PZERO := by
      rw [hthrf, fmul_of_isZero _ (by decide) hfinite, hmax.isNeg]
      decide
    exact ⟨hthr, gateBins_of_isZero_thr (s := withThreshold s) (congrArg isZero hthr)⟩
  · have hthr : fmul s.config s.thrf s.largestMag = s.largestMag := by rw [hthrf, fmul_ONE_left _ hmax.isNaN]
    refine ⟨hthr, fun i hi => ?_⟩
    rw [finish_bin, gateBins_bin, withThreshold_thr, hthr]
    simp only [withThreshold_len, hi, true_and]
    rfl
  · have hzero : s.largestMag = PZERO := State.largestMag_of_isZero hsilent
    have hthr : isZero (fmul s.config s.thrf s.largestMag) = true := by rw [hzero, isZero_fmul_PZERO _ hfinite]
    exact ⟨hzero, hthr, gateBins_of_isZero_thr (s := withThreshold s) hthr⟩

end Sys2Proof.Machine
end

section
/-!
SUPPORT. Truncation and re-quantization (44_requant.md R120 to R122): the range of a re-quantized value, the samples after
`QUANT`'s writes, what the two commands answer and what they leave alone.
-/

namespace Sys2Proof.Machine

/-- A completion that answers is a fault taken in the state the command began in, or the end of its pseudocode. -/
theorem complete_next {r : Except CmdFault State} {s t : State} (h : complete r s = .next t) :
    (∃ f, t = raise f s) ∨ ∃ u, r = .ok u ∧ t = finish u := by
  rcases complete_cases s r with ⟨f, -, hr⟩ | ⟨u, hok, hr⟩ <;> rw [hr] at h <;> cases h
  · exact .inl ⟨f, rfl⟩
  · exact .inr ⟨u, hok, rfl⟩

/-! `TRUNC` (44 R120). -/

theorem truncCode_eq_ok {s u : State} (h : truncCode s = .ok u) : u = s.setLen s.olen := by
  rcases truncCode_cases s with ⟨-, hr⟩ | ⟨-, -, hr⟩ | ⟨-, -, hr⟩ <;> cases hr.symm.trans h
  rfl

theorem truncCode_of_le {s : State} (hcap : s.len.toNat ≤ s.cap) (hlen : s.olen.toNat ≤ s.len.toNat) :
    truncCode s = .ok (s.setLen s.olen) :=
  (withinCap_of_le s hcap _).trans (if_neg (Nat.not_lt.mpr hlen))

/-- Settles O47: neither check raises. -/
theorem truncCompletes : Obligations.TruncCompletes := fun s hcap hlen =>
  congrArg (complete · s) (truncCode_of_le hcap hlen)

/-! `QUANT` (44 R121, R122). -/

section Widths

variable {w : Nat} (hw : w = 8 ∨ w = 16 ∨ w = 32) (ties : TieRule) (a : Binary64)
include hw

theorem requant_range : -(2 ^ (w - 1)) ≤ requant ties w a ∧ requant ties w a < 2 ^ (w - 1) := by
  obtain ⟨hlo, hhi, -, -⟩ := wrapIsTheSignedResidue w (roundInt ties a) hw
  exact ⟨hlo, hhi⟩

/-- A 32-bit element holds the value of every legal width, sign-extended. -/
theorem requantSample_toInt : (requantSample ties w a).toInt = requant ties w a := by
  obtain ⟨hlo, hhi⟩ := requant_range hw ties a
  have hpow : (2 : Int) ^ (w - 1) ≤ 2 ^ 31 := pow_le_pow_right₀ (by decide) (by omega)
  exact BitVec.toInt_ofInt_eq_self (by decide) ((neg_le_neg hpow).trans hlo) (hhi.trans_le hpow)

end Widths

theorem legalWidth_toNat {b : Reg32} (h : b = 8#32 ∨ b = 16#32 ∨ b = 32#32) :
    b.toNat = 8 ∨ b.toNat = 16 ∨ b.toNat = 32 := by
  rcases h with rfl | rfl | rfl <;> decide

section Writes

variable (s : State)

theorem requantize_readSmp (i : Nat) :
    (requantize s).readSmp i =
      if i < s.len.toNat then requantSample s.config.ties s.bits.toNat (s.readRe i) else s.readSmp i := by
  rw [requantize, State.setSlen_readSmp, State.readSmp_setSmp, Mem.read_writeList, if_pos (Nat.zero_le i), Nat.sub_zero,
    List.getElem?_map]
  split
  · next h => rw [State.reals_getElem? s h]; rfl
  · next h => rw [List.getElem?_eq_none (by simpa using h)]; rfl

theorem requantize_readSmp_of_le {i : Nat} (hi : s.len.toNat ≤ i) : (requantize s).readSmp i = s.readSmp i := by
  rw [requantize_readSmp, if_neg (Nat.not_lt.mpr hi)]

theorem finish_requantize_frame : (((finish (requantize s)).setSmp s.smp).setSlen s.slen).setStatus s.status = s := by
  apply State.eq_of_fields <;> simp

end Writes

theorem quantCode_eq_ok {s u : State} (h : quantCode s = .ok u) : u = requantize s := by
  rcases quantCode_cases s with ⟨-, hr⟩ | ⟨-, -, hr⟩ | ⟨-, -, _, -, hr⟩ | ⟨-, -, -, hr⟩ <;> cases hr.symm.trans h
  rfl

/-- The check pass finds no value that is NaN or infinite. -/
theorem finiteThenRequantize_of_isFinite {s : State} (h : ∀ i, i < s.len.toNat → isFinite (s.readRe i) = true) :
    finiteThenRequantize s = .ok (requantize s) := by
  have hnone : firstNonFinite 0 (s.reals s.len.toNat) = none :=
    (firstNonFinite_eq_none _ 0).mpr (by simpa [State.reals] using h)
  rw [finiteThenRequantize, hnone]

theorem quantCode_of_isFinite {s : State} (hcap : s.len.toNat ≤ s.cap)
    (hbits : s.bits = 8#32 ∨ s.bits = 16#32 ∨ s.bits = 32#32)
    (hfinite : ∀ i, i < s.len.toNat → isFinite (s.readRe i) = true) : quantCode s = .ok (requantize s) :=
  calc quantCode s
    _ = widthLegal s finiteThenRequantize := withinCap_of_le s hcap _
    _ = finiteThenRequantize s := if_pos ((legalWidth_iff s.bits).mpr hbits)
    _ = .ok (requantize s) := finiteThenRequantize_of_isFinite hfinite

theorem exec_quant_of_isFinite {s : State} (hcap : s.len.toNat ≤ s.cap)
    (hbits : s.bits = 8#32 ∨ s.bits = 16#32 ∨ s.bits = 32#32)
    (hfinite : ∀ i, i < s.len.toNat → isFinite (s.readRe i) = true) : exec .quant s = .next (finish (requantize s)) :=
  congrArg (complete · s) (quantCode_of_isFinite hcap hbits hfinite)

/-- Settles O48: no check raises, and each element written holds the wrapped value in full. -/
theorem quantCompletes : Obligations.QuantCompletes := by
  intro s hcap hbits hfinite
  refine ⟨_, exec_quant_of_isFinite hcap hbits hfinite, fun i hi => ?_, fun i hi => requantize_readSmp_of_le s hi, rfl, rfl,
    finish_requantize_frame s⟩
  have hw := legalWidth_toNat hbits
  rw [finish_readSmp, requantize_readSmp, if_pos hi, requantSample_toInt hw]
  exact ⟨rfl, requant_range hw s.config.ties (s.readRe i)⟩

/-- Settles O58: a fault changes `STATUS` alone, `TRUNC` then writes `LEN` alone and `QUANT` no sample from `LEN` on. -/
theorem requantFrame : Obligations.RequantFrame := by
  refine ⟨fun s t h => ?_, fun s t h => ?_⟩
  · rcases complete_next (r := truncCode s) h with ⟨f, rfl⟩ | ⟨u, hu, rfl⟩
    · exact ⟨rfl, fun _ => rfl, fun _ => rfl, fun _ => rfl⟩
    · obtain rfl := truncCode_eq_ok hu
      exact ⟨rfl, fun _ => rfl, fun _ => rfl, fun _ => rfl⟩
  · rcases complete_next (r := quantCode s) h with ⟨f, rfl⟩ | ⟨u, hu, rfl⟩
    · exact ⟨rfl, fun _ => rfl, fun _ => rfl, fun _ _ => rfl⟩
    · obtain rfl := quantCode_eq_ok hu
      exact ⟨finish_requantize_frame s, requantize_readRe s, requantize_readIm s, fun i hi => requantize_readSmp_of_le s hi⟩

end Sys2Proof.Machine
end

section
/-!
SUPPORT. A bound on the transforms (42_transform.md R99, R102): rounding never passes a power of two and a twiddle's parts are at
most 1.0, so each level of the recursion at most quadruples the largest part, and no transform of moderate values overflows.
-/

namespace Sys2Proof.Machine

/-! Magnitudes of at most a power of two (40 R66, R67). -/

/-- A finite pattern of at most `2^k` units, of either sign. -/
structure AtMost (k : Nat) (a : Binary64) : Prop where
  isFinite : isFinite a = true
  units_le : units a ≤ 2 ^ k

theorem AtMost.mono {j k : Nat} {a : Binary64} (h : AtMost j a) (hjk : j ≤ k) : AtMost k a :=
  ⟨h.isFinite, h.units_le.trans (Nat.pow_le_pow_right Nat.two_pos hjk)⟩

theorem AtMost.fneg {k : Nat} {a : Binary64} (h : AtMost k a) : AtMost k (fneg a) :=
  ⟨(isFinite_fneg a).trans h.isFinite, (units_fneg a).trans_le h.units_le⟩

theorem atMost_of_isZero (k : Nat) {a : Binary64} (h : isZero a = true) : AtMost k a :=
  ⟨isFinite_of_isZero h, ((units_eq_zero_iff a).mpr h).trans_le (Nat.zero_le _)⟩

theorem expField_rn (neg : Bool) (n d : Nat) : expField (rn neg n d) = rnMag n d / 2 ^ 52 :=
  expField_signed neg (rnMag_lt n d)

theorem fracField_rn (neg : Bool) (n d : Nat) : fracField (rn neg n d) = rnMag n d % 2 ^ 52 :=
  fracField_signed neg (rnMag_lt n d)

/-- Rounding does not pass a power of two, whatever the sign. -/
theorem rn_atMost (neg : Bool) {n d k : Nat} (hd : 0 < d) (hk : k ≤ 2044) (h : n ≤ 2 ^ k * d) : AtMost k (rn neg n d) := by
  obtain ⟨hfinite, -, hunits⟩ := rn_posAtMost (n := n) (m := 1) hd (by decide) hk (by rwa [Nat.one_mul])
  rw [Nat.one_mul] at hunits
  constructor
  · rwa [isFinite, expField_rn] at hfinite ⊢
  · rwa [units, expField_rn, fracField_rn] at hunits ⊢

section Operations

variable (c : Config) {k : Nat} {a b : Binary64}

/-- A factor of at most 1.0 does not raise the bound. -/
theorem fmul_atMost (hk : k ≤ 2044) (ha : AtMost 1074 a) (hb : AtMost k b) : AtMost k (fmul c a b) := by
  rw [fmul_eq_rn c ha.isFinite hb.isFinite]
  refine rn_atMost _ (pow_pos two_pos 1074) hk ?_
  rw [Nat.mul_comm]
  exact Nat.mul_le_mul hb.units_le ha.units_le

theorem fadd_atMost (hk : k < 2044) (ha : AtMost k a) (hb : AtMost k b) : AtMost (k + 1) (fadd c a b) := by
  rw [fadd_of_isFinite c ha.isFinite hb.isFinite]
  split
  · split
    · exact atMost_of_isZero _ (by decide)
    · exact atMost_of_isZero _ (by decide)
  · refine rn_atMost _ Nat.one_pos hk ?_
    calc (value a + value b).natAbs
      _ ≤ (value a).natAbs + (value b).natAbs := Int.natAbs_add_le ..
      _ = units a + units b := by rw [natAbs_value, natAbs_value]
      _ ≤ 2 ^ k + 2 ^ k := Nat.add_le_add ha.units_le hb.units_le
      _ = 2 ^ (k + 1) * 1 := by rw [Nat.mul_one, Nat.pow_succ, Nat.mul_two]

theorem fsub_atMost (hk : k < 2044) (ha : AtMost k a) (hb : AtMost k b) : AtMost (k + 1) (fsub c a b) := by
  rw [fsub_of_not_isNaN c (isNaN_of_isFinite ha.isFinite) (isNaN_of_isFinite hb.isFinite)]
  exact fadd_atMost c hk ha hb.fneg

/-- Division by the length of a transform does not raise the bound. -/
theorem fdiv_two_pow_atMost {d : Nat} (hd : d < 53) (hk : k ≤ 2044) (ha : AtMost k a) :
    AtMost k (fdiv c a (i2f (2 ^ d : Nat))) := by
  obtain ⟨hfinite, -, hzero, hunits⟩ := i2f_two_pow hd
  have hone : 2 ^ 1074 ≤ 2 ^ d * 2 ^ 1074 := Nat.le_mul_of_pos_left _ (Nat.two_pow_pos d)
  rw [fdiv_eq_rn c ha.isFinite hfinite hzero, hunits]
  exact rn_atMost _ (Nat.mul_pos (Nat.two_pow_pos d) (pow_pos two_pos 1074)) hk (Nat.mul_le_mul ha.units_le hone)

end Operations

/-! Coefficients. -/

/-- Both parts of a coefficient are at most `2^k` units. -/
structure BinAtMost (k : Nat) (b : Bin) : Prop where
  re : AtMost k b.re
  im : AtMost k b.im

theorem BinAtMost.mono {j k : Nat} {b : Bin} (h : BinAtMost j b) (hjk : j ≤ k) : BinAtMost k b :=
  ⟨h.re.mono hjk, h.im.mono hjk⟩

/-- Every coefficient of a sequence has parts of at most `2^k` units. -/
def AllAtMost (k : Nat) (x : List Bin) : Prop := ∀ b ∈ x, BinAtMost k b

theorem AllAtMost.mono {j k : Nat} {x : List Bin} (h : AllAtMost j x) (hjk : j ≤ k) : AllAtMost k x :=
  fun b hb => (h b hb).mono hjk

section Transforms

variable (c : Config) {d k : Nat}

/-- The parts of a twiddle are at most 1.0 (40 R78: TRIG_FINITE). -/
theorem twiddle_atMost {i : Nat} (hd : d ≤ 29) (hi : i < 2 ^ d) : BinAtMost 1074 (twiddle c i (2 ^ (d + 1))) := by
  have hangle := (angle_posAtMost c hd hi).isFinite
  obtain ⟨hcos, hcos'⟩ := fcos_of_isFinite c hangle
  obtain ⟨hsin, hsin'⟩ := fsin_of_isFinite c hangle
  rw [units_ONE] at hcos' hsin'
  exact ⟨⟨hcos, hcos'⟩, AtMost.fneg ⟨hsin, hsin'⟩⟩

/-- A rotation at most doubles the bound. -/
theorem rotate_atMost {w o : Bin} (hk : k < 2044) (hw : BinAtMost 1074 w) (ho : BinAtMost k o) :
    BinAtMost (k + 1) (rotate c w o) where
  re := fsub_atMost c hk (fmul_atMost c hk.le hw.re ho.re) (fmul_atMost c hk.le hw.im ho.im)
  im := fadd_atMost c hk (fmul_atMost c hk.le hw.re ho.im) (fmul_atMost c hk.le hw.im ho.re)

theorem butterflyAdd_atMost {e t : Bin} (hk : k < 2044) (he : BinAtMost k e) (ht : BinAtMost k t) :
    BinAtMost (k + 1) (butterflyAdd c e t) :=
  ⟨fadd_atMost c hk he.re ht.re, fadd_atMost c hk he.im ht.im⟩

theorem butterflySub_atMost {e t : Bin} (hk : k < 2044) (he : BinAtMost k e) (ht : BinAtMost k t) :
    BinAtMost (k + 1) (butterflySub c e t) :=
  ⟨fsub_atMost c hk he.re ht.re, fsub_atMost c hk he.im ht.im⟩

theorem evens_subset {α : Type} (x : List α) : evens x ⊆ x := fun a ha => by
  obtain ⟨i, hi⟩ := List.mem_iff_getElem?.mp ha
  exact List.mem_of_getElem? ((evens_getElem? x i).symm.trans hi)

theorem odds_subset {α : Type} (x : List α) : odds x ⊆ x := fun a ha => by
  obtain ⟨i, hi⟩ := List.mem_iff_getElem?.mp ha
  exact List.mem_of_getElem? ((odds_getElem? x i).symm.trans hi)

/-- Combining two half transforms at most quadruples the bound: the rotation doubles it, and the sum again. -/
theorem combine_allAtMost {e o : List Bin} (hd : d ≤ 29) (hk : k + 1 < 2044) (he : e.length = 2 ^ d) (ho : o.length = 2 ^ d)
    (hae : AllAtMost k e) (hao : AllAtMost k o) : AllAtMost (k + 2) (combine c (2 ^ (d + 1)) e o) := by
  intro b hb
  obtain ⟨i, hi⟩ := List.mem_iff_getElem?.mp hb
  obtain ⟨hlt, -⟩ := List.getElem?_eq_some_iff.mp hi
  rw [combine_length, he, ho, Nat.min_self] at hlt
  have hbutterfly {j : Nat} (hj : j < 2 ^ d) := combine_getElem? c (2 ^ (d + 1)) he ho hj
  have hrotate {j : Nat} (hj : j < 2 ^ d) {w : Bin} (hw : o[j]? = some w) :=
    rotate_atMost c (by omega : k < 2044) (twiddle_atMost c hd hj) (hao w (List.mem_of_getElem? hw))
  by_cases hfirst : i < 2 ^ d
  · obtain ⟨u, w, hu, hw, hadd, -⟩ := hbutterfly hfirst
    rw [Option.some.inj (hi.symm.trans hadd)]
    exact butterflyAdd_atMost c hk ((hae u (List.mem_of_getElem? hu)).mono (Nat.le_succ k)) (hrotate hfirst hw)
  · obtain ⟨j, rfl⟩ := Nat.exists_eq_add_of_le' (not_lt.mp hfirst)
    obtain ⟨u, w, hu, hw, -, hsub⟩ := hbutterfly (j := j) (by omega)
    rw [Option.some.inj (hi.symm.trans hsub)]
    exact butterflySub_atMost c hk ((hae u (List.mem_of_getElem? hu)).mono (Nat.le_succ k)) (hrotate (by omega) hw)

/-- A transform of length `2^d` raises the bound by at most `4^d`. -/
theorem fft_two_pow_allAtMost {x : List Bin} (hd : d ≤ 30) (hk : k + 2 * d ≤ 2044) (hx : x.length = 2 ^ d)
    (h : AllAtMost k x) : AllAtMost (k + 2 * d) (fft c x) := by
  induction d generalizing x with
  | zero => rwa [fft_of_length_le_one c hx.le]
  | succ d ih =>
    have he := evens_length_of_two_pow hx
    have ho := odds_length_of_two_pow hx
    rw [fft_eq_combine c hx]
    exact combine_allAtMost c (k := k + 2 * d) (by omega) (by omega) (fft_length_of_two_pow c he) (fft_length_of_two_pow c ho)
      (ih (by omega) (by omega) he fun b hb => h b (evens_subset x hb))
      (ih (by omega) (by omega) ho fun b hb => h b (odds_subset x hb))

/-- An inverse transform raises the bound no more than the transform it is built on. -/
theorem ifft_two_pow_allAtMost {x : List Bin} (hd : d ≤ 30) (hk : k + 2 * d ≤ 2044) (hx : x.length = 2 ^ d)
    (h : AllAtMost k x) : AllAtMost (k + 2 * d) (ifft c x) := by
  have hconjugate : AllAtMost k (x.map conjugate) :=
    List.forall_mem_map.mpr fun b hb => ⟨(h b hb).re, (h b hb).im.fneg⟩
  rw [ifft, hx]
  refine List.forall_mem_map.mpr fun b hb => ?_
  have hb := fft_two_pow_allAtMost c hd hk (by rwa [List.length_map]) hconjugate b hb
  exact ⟨fdiv_two_pow_atMost c (by omega) hk hb.re, fdiv_two_pow_atMost c (by omega) hk hb.im.fneg⟩

/-- The lengths of the sequences a command transforms: none, or a power of two of at most the largest `CAP` (00 R6). -/
structure TransformLength (n : Nat) : Prop where
  zero_or_pow2 : n = 0 ∨ ispow2 n = true
  le : n ≤ 2 ^ 30

theorem TransformLength.cases {n : Nat} (h : TransformLength n) : n = 0 ∨ ∃ d ≤ 30, n = 2 ^ d := by
  obtain ⟨hzero | hpow, hle⟩ := h
  · exact .inl hzero
  · obtain ⟨d, rfl⟩ := ispow2_iff.mp hpow
    exact .inr ⟨d, (Nat.pow_le_pow_iff_right Nat.one_lt_two).mp hle, rfl⟩

/-- The longest transform has 30 levels. -/
theorem fft_allAtMost {x : List Bin} (hx : TransformLength x.length) (hk : k + 60 ≤ 2044) (h : AllAtMost k x) :
    AllAtMost (k + 60) (fft c x) := by
  obtain hzero | ⟨d, hd, hlen⟩ := hx.cases
  · rw [fft_of_length_le_one c (by omega)]
    exact h.mono (Nat.le_add_right ..)
  · exact (fft_two_pow_allAtMost c hd (by omega) hlen h).mono (by omega)

theorem ifft_allAtMost {x : List Bin} (hx : TransformLength x.length) (hk : k + 60 ≤ 2044) (h : AllAtMost k x) :
    AllAtMost (k + 60) (ifft c x) := by
  obtain hzero | ⟨d, hd, hlen⟩ := hx.cases
  · rw [List.eq_nil_of_length_eq_zero hzero]
    exact fun b hb => absurd hb List.not_mem_nil
  · exact (ifft_two_pow_allAtMost c hd (by omega) hlen h).mono (by omega)

end Transforms

theorem i2f_atMost {v : Int} {k : Nat} (hk : k + 1074 ≤ 2044) (hv : v.natAbs ≤ 2 ^ k) : AtMost (k + 1074) (i2f v) := by
  refine rn_atMost _ Nat.one_pos hk ?_
  rw [Nat.mul_one, Nat.pow_add 2 k 1074]
  gcongr

/-- A sample is at most `2^31` (41 R86). -/
theorem i2f_sample_atMost (v : Sample) : AtMost (31 + 1074) (i2f v.toInt) := by
  have hlo := v.le_toInt
  have hhi := v.toInt_lt
  exact i2f_atMost (by decide) (by omega)

end Sys2Proof.Machine
end

section
/-!
SUPPORT. `DENOISE`'s pass as its eight commands run one after another (30_encoding.md R64, 45_composite_system.md R130): a
completion changes `STATUS` alone, no pseudocode reads it, and the next completion writes it again.
-/

namespace Sys2Proof.Machine

/-- Pseudocode that acts alike before and after a completion, which changes `STATUS` alone. -/
def IgnoresStatus (code : State → Except CmdFault State) : Prop := ∀ s, code (finish s) = (code s).map finish

theorem IgnoresStatus.withinCap {reg : State → Reg32} (hreg : ∀ s, reg (finish s) = reg s)
    {run : State → Except CmdFault State} (h : IgnoresStatus run) :
    IgnoresStatus fun s => withinCap (reg s) s run := fun s => by
  simp only [hreg]
  rcases withinCap_cases s (reg s) run with ⟨hc, hr⟩ | ⟨hc, hr⟩
  · rw [hr, Machine.withinCap, finish_cap, if_pos hc]
    rfl
  · rw [hr, withinCap_of_le (finish s) hc, h]

theorem fftrzpCode_ignoresStatus : IgnoresStatus fftrzpCode := .withinCap (reg := State.len) (fun _ => rfl) fun _ => rfl

theorem magmaxCode_ignoresStatus : IgnoresStatus magmaxCode := .withinCap (reg := State.len) (fun _ => rfl) fun _ => rfl

theorem thrsetCode_ignoresStatus : IgnoresStatus thrsetCode := fun _ => rfl

theorem gateCode_ignoresStatus : IgnoresStatus gateCode := .withinCap (reg := State.len) (fun _ => rfl) fun _ => rfl

theorem ifftCode_ignoresStatus : IgnoresStatus ifftCode :=
  .withinCap (reg := State.len) (fun _ => rfl) fun s => by
    rcases powerOfTwoLen_cases s (fun s => .ok (inverseTransform s)) with ⟨h0, hp, hr⟩ | ⟨hp, hr⟩ <;> rw [hr]
    · exact if_pos ⟨h0, hp⟩
    · exact if_neg (by simpa [or_iff_not_imp_left] using hp)

theorem truncCode_ignoresStatus : IgnoresStatus truncCode :=
  .withinCap (reg := State.len) (fun _ => rfl) fun s => by
    rw [finish_olen, finish_len]
    split <;> rfl

theorem finiteThenRequantize_ignoresStatus : IgnoresStatus finiteThenRequantize := fun s => by
  have hreals : (finish s).reals (finish s).len.toNat = s.reals s.len.toNat := rfl
  rw [finiteThenRequantize, finiteThenRequantize, hreals]
  split <;> rfl

theorem quantCode_ignoresStatus : IgnoresStatus quantCode :=
  .withinCap (reg := State.len) (fun _ => rfl) fun s => by
    rcases widthLegal_cases s finiteThenRequantize with ⟨hw, hr⟩ | ⟨hw, hr⟩ <;> rw [hr]
    · exact if_neg (by simp [hw])
    · exact (if_pos hw).trans (finiteThenRequantize_ignoresStatus s)

theorem runCommands_concat {is : List Instr} {i : Instr} {s t : State} (h : runCommands is s = .next t) :
    runCommands (is ++ [i]) s = exec i t := by
  induction is generalizing s with
  | nil =>
    cases h
    rw [List.nil_append, runCommands]
    cases exec i t <;> rfl
  | cons j is ih =>
    rw [runCommands] at h
    rw [List.cons_append, runCommands]
    split at h
    · exact ih h
    · cases h
    · cases h

/-- When the pseudocode run ends without a fault, the commands run one after another end in the completion of its end state. -/
def Leaves (s : State) (is : List Instr) (r : Except CmdFault State) : Prop :=
  ∀ t, r = .ok t → runCommands is s = .next (finish t)

/-- A command run after others acts as its pseudocode does on the end state of theirs. -/
theorem Leaves.bind {s : State} {is : List Instr} {r : Except CmdFault State} (h : Leaves s is r) {i : Instr}
    {code : State → Except CmdFault State} (hexec : ∀ u, exec i u = complete (code u) u) (hcode : IgnoresStatus code) :
    Leaves s (is ++ [i]) (r.bind code) := by
  cases r with
  | error f => exact fun _ ht => by cases ht
  | ok u =>
    intro t (ht : code u = .ok t)
    rw [runCommands_concat (h u rfl), hexec, hcode u, ht]
    exact congrArg Host.Outcome.next (finish_finish t)

theorem denoisePass_leaves (s : State) :
    Leaves s [.toflt, .fftrzp, .magmax, .thrset, .gate, .ifft, .trunc, .quant] (denoisePass s) := by
  have htoflt : Leaves s [.toflt] (tofltCode s) := fun t ht => by
    rw [runCommands, exec, execToflt, ht]
    rfl
  exact htoflt.bind (i := .fftrzp) (fun _ => rfl) fftrzpCode_ignoresStatus
    |>.bind (i := .magmax) (fun _ => rfl) magmaxCode_ignoresStatus
    |>.bind (i := .thrset) (fun _ => rfl) thrsetCode_ignoresStatus
    |>.bind (i := .gate) (fun _ => rfl) gateCode_ignoresStatus
    |>.bind (i := .ifft) (fun _ => rfl) ifftCode_ignoresStatus
    |>.bind (i := .trunc) (fun _ => rfl) truncCode_ignoresStatus
    |>.bind (i := .quant) (fun _ => rfl) quantCode_ignoresStatus

end Sys2Proof.Machine
end

section
/-!
SUPPORT. `DENOISE` (45_composite_system.md R130, R131): the pass as one function of the channel's sequence, whose values stay
finite, what that makes of the state, and what the command answers and leaves alone.
-/

namespace Sys2Proof.Machine

/-! The pass on sequences. -/

/-- What `GATE` makes of one coefficient under the threshold `thr` (43 R113). -/
def gateBin (c : Config) (thr : Binary64) (b : Bin) : Bin := if flt (mag c b) thr then { re := PZERO, im := PZERO } else b

/-- What `FFTRZP; MAGMAX; THRSET; GATE; IFFT` makes of a padded sequence under the fraction `thrf`. -/
def denoiseSequence (c : Config) (thrf : Binary64) (x : List Bin) : List Bin :=
  ifft c ((fft c x).map (gateBin c (fmul c thrf (maxMag c (fft c x)))))

theorem gateBin_atMost {c : Config} {thr : Binary64} {k : Nat} {b : Bin} (h : BinAtMost k b) :
    BinAtMost k (gateBin c thr b) := by
  unfold gateBin
  split
  · exact ⟨atMost_of_isZero k (by decide), atMost_of_isZero k (by decide)⟩
  · exact h

/-- The gate never enlarges a value, so two transforms bound the pass. -/
theorem denoiseSequence_allAtMost (c : Config) (thrf : Binary64) {x : List Bin} {k : Nat} (hx : TransformLength x.length)
    (hk : k + 120 ≤ 2044) (h : AllAtMost k x) : AllAtMost (k + 120) (denoiseSequence c thrf x) := by
  have hlen := fft_length c hx.zero_or_pow2
  refine ifft_allAtMost c (k := k + 60) (by rwa [List.length_map, hlen]) hk ?_
  exact List.forall_mem_map.mpr fun b hb => gateBin_atMost (fft_allAtMost c hx (by omega) h b hb)

/-- The channel as `FFTRZP` transforms it: the converted samples, padded. -/
def State.channel (s : State) : List Bin := (List.range (npow2 s.slen.toNat)).map (convertSamples s).paddedReal

theorem convertSamples_len (s : State) : (convertSamples s).len = s.slen := rfl
theorem convertSamples_olen (s : State) : (convertSamples s).olen = s.slen := rfl

theorem convertSamples_paddedReal (s : State) (i : Nat) :
    (convertSamples s).paddedReal i = { re := if i < s.slen.toNat then i2f (s.readSmp i).toInt else PZERO, im := PZERO } := by
  rw [State.paddedReal, convertSamples_len, convertSamples_readRe]
  split <;> rfl

theorem State.channel_allAtMost (s : State) : AllAtMost (31 + 1074) s.channel := by
  refine List.forall_mem_map.mpr fun i _ => ?_
  rw [convertSamples_paddedReal]
  refine ⟨?_, atMost_of_isZero _ (show isZero PZERO = true by decide)⟩
  dsimp only
  split
  · exact i2f_sample_atMost _
  · exact atMost_of_isZero _ (by decide)

/-! The coefficients below `LEN` after each command's writes. -/

/-- The coefficients below `LEN`, on which the commands work. -/
def State.sequence (s : State) : List Bin := s.bins s.len.toNat

@[simp] theorem State.sequence_length (s : State) : s.sequence.length = s.len.toNat := State.bins_length ..

theorem State.sequence_eq {s : State} {x : List Bin} (hlen : x.length = s.len.toNat)
    (h : ∀ i < s.len.toNat, x[i]? = some (s.bin i)) : s.sequence = x := by
  refine List.ext_getElem? fun i => ?_
  rcases Nat.lt_or_ge i s.len.toNat with hi | hi
  · rw [h i hi, State.sequence, State.bins_getElem? s hi]
  · rw [List.getElem?_eq_none (by simpa using hi), List.getElem?_eq_none (by omega)]

theorem storeBins_sequence {s : State} {x : List Bin} (hlen : x.length = s.len.toNat) : (s.storeBins x).sequence = x :=
  State.sequence_eq hlen fun i hi => by
    rw [storeBins_bin, List.getElem?_eq_getElem (hi.trans_eq hlen.symm), Option.getD_some]

theorem gateBins_sequence (s : State) : (gateBins s).sequence = s.sequence.map (gateBin s.config s.thr) := by
  refine State.sequence_eq (by simp) fun i hi => ?_
  have hi : i < s.len.toNat := by simpa using hi
  rw [List.getElem?_map, State.sequence, State.bins_getElem? s hi, gateBins_bin, Option.map_some, gateBin]
  simp only [hi, true_and]

theorem inverseTransform_bin_of_le (s : State) {i : Nat} (hi : s.len.toNat ≤ i) : (inverseTransform s).bin i = s.bin i := by
  have hle : (ifft s.config (s.bins s.len.toNat)).length ≤ i := (ifft_length_le _ _).trans (by simpa using hi)
  rw [inverseTransform, storeBins_bin, List.getElem?_eq_none hle, Option.getD_none]

theorem inverseTransform_sequence {s : State} (h : s.len.toNat = 0 ∨ ispow2 s.len.toNat = true) :
    (inverseTransform s).sequence = ifft s.config s.sequence :=
  storeBins_sequence (by rw [ifft_length _ (by simpa using h), State.bins_length])

theorem padAndTransform_sequence {s : State} (h : s.len.toNat ≤ s.cap) :
    (padAndTransform s).sequence = fft s.config ((List.range (npow2 s.len.toNat)).map s.paddedReal) := by
  have hlen : (padAndTransform s).len.toNat = npow2 s.len.toNat := paddedLength_toNat h
  refine State.sequence_eq ?_ fun i hi => padAndTransform_bin_of_lt h (hi.trans_eq hlen)
  rw [fft_length _ (by simpa using npow2_eq_zero_or_ispow2 _), List.length_map, List.length_range, hlen]

/-! Steps that raise nothing. -/

theorem magmaxCode_of_le {s : State} (h : s.len.toNat ≤ s.cap) : magmaxCode s = .ok (s.setMaxmag s.largestMag) :=
  withinCap_of_le s h _

theorem gateCode_of_le {s : State} (h : s.len.toNat ≤ s.cap) : gateCode s = .ok (gateBins s) := withinCap_of_le s h _

theorem thrsetCode_setMaxmag (s : State) : thrsetCode (s.setMaxmag s.largestMag) = .ok (withThreshold s) := rfl

theorem ifftCode_of_pow2 {s : State} (hcap : s.len.toNat ≤ s.cap) (hlen : s.len.toNat = 0 ∨ ispow2 s.len.toNat = true) :
    ifftCode s = .ok (inverseTransform s) := by
  rcases ifftCode_cases s with ⟨hc, -⟩ | ⟨-, h0, hp, -⟩ | ⟨-, -, hr⟩
  · omega
  · simp [h0, hp] at hlen
  · exact hr

theorem bind_eq_ok {r : Except CmdFault State} {code : State → Except CmdFault State} {t u : State} (hr : r = .ok t)
    (hcode : code t = .ok u) : r.bind code = .ok u := by
  rw [hr]
  exact hcode

/-! The pass on the state. -/

@[simp] theorem withThreshold_config (s : State) : (withThreshold s).config = s.config := rfl
@[simp] theorem withThreshold_cap (s : State) : (withThreshold s).cap = s.cap := rfl
@[simp] theorem withThreshold_bin (s : State) (i : Nat) : (withThreshold s).bin i = s.bin i := rfl
theorem withThreshold_sequence (s : State) : (withThreshold s).sequence = s.sequence := rfl

/-- What steps 1 and 2 leave: the transform of the padded channel. -/
def spectrum (s : State) : State := padAndTransform (convertSamples s)

/-- What steps 1 to 6 leave: the gated spectrum transformed back. -/
def transformedBack (s : State) : State := inverseTransform (gateBins (withThreshold (spectrum s)))

/-- What the pass leaves when it raises nothing. -/
def denoised (s : State) : State := requantize ((transformedBack s).setLen (transformedBack s).olen)

section

variable (s : State)

@[simp] theorem spectrum_config : (spectrum s).config = s.config := by simp [spectrum]
@[simp] theorem spectrum_thrf : (spectrum s).thrf = s.thrf := by simp [spectrum]
@[simp] theorem spectrum_cap : (spectrum s).cap = s.cap := by simp [spectrum]

@[simp] theorem transformedBack_config : (transformedBack s).config = s.config := by
  simp [transformedBack, spectrum, withThreshold]
@[simp] theorem transformedBack_bits : (transformedBack s).bits = s.bits := by
  simp [transformedBack, spectrum, withThreshold]
@[simp] theorem transformedBack_cap : (transformedBack s).cap = s.cap := by
  simp [transformedBack, spectrum, withThreshold]
@[simp] theorem transformedBack_olen : (transformedBack s).olen = s.slen := by
  simp [transformedBack, spectrum, withThreshold, convertSamples_olen]
@[simp] theorem transformedBack_readSmp (i : Nat) : (transformedBack s).readSmp i = s.readSmp i := by
  simp [transformedBack, spectrum, withThreshold]

@[simp] theorem denoised_config : (denoised s).config = s.config := by simp [denoised]
@[simp] theorem denoised_cmd : (denoised s).cmd = s.cmd := by simp [denoised, transformedBack, spectrum, withThreshold]
@[simp] theorem denoised_status : (denoised s).status = s.status := by simp [denoised, transformedBack, spectrum, withThreshold]
@[simp] theorem denoised_slen : (denoised s).slen = s.slen := by simp [denoised, requantize]
@[simp] theorem denoised_len : (denoised s).len = s.slen := by simp [denoised]
@[simp] theorem denoised_olen : (denoised s).olen = s.slen := by simp [denoised]
@[simp] theorem denoised_bits : (denoised s).bits = s.bits := by simp [denoised]
@[simp] theorem denoised_thrf : (denoised s).thrf = s.thrf := by simp [denoised, transformedBack, spectrum, withThreshold]
@[simp] theorem denoised_draws : (denoised s).draws = s.draws := by simp [denoised, transformedBack, spectrum, withThreshold]
@[simp] theorem denoised_pending : (denoised s).pending = s.pending := by simp [denoised, transformedBack, spectrum, withThreshold]
@[simp] theorem denoised_replies : (denoised s).replies = s.replies := by simp [denoised, transformedBack, spectrum, withThreshold]

end

theorem le_npow2 (n : Nat) : n ≤ npow2 n := by
  by_cases h0 : n = 0
  · rw [h0]
    exact Nat.zero_le _
  · cases h : ispow2 n
    · rw [npow2_of_not_ispow2 h0 h]
      exact Nat.lt_log2_self.le
    · rw [npow2_of_ispow2 h]

section

variable {s : State} (h : s.slen.toNat ≤ s.cap)
include h

theorem convertSamples_len_le_cap : (convertSamples s).len.toNat ≤ (convertSamples s).cap := by
  rwa [convertSamples_len, convertSamples_cap]

theorem spectrum_len_toNat : (spectrum s).len.toNat = npow2 s.slen.toNat :=
  paddedLength_toNat (convertSamples_len_le_cap h)

theorem transformedBack_len_toNat : (transformedBack s).len.toNat = npow2 s.slen.toNat := by
  simpa [transformedBack] using spectrum_len_toNat h

theorem spectrum_sequence : (spectrum s).sequence = fft s.config s.channel := by
  rw [spectrum, padAndTransform_sequence (convertSamples_len_le_cap h), convertSamples_config, convertSamples_len,
    State.channel]

theorem spectrum_largestMag : (spectrum s).largestMag = maxMag s.config (fft s.config s.channel) := by
  rw [State.largestMag, ← State.sequence, spectrum_sequence h, spectrum_config]

/-- The coefficients before re-quantization are a function of the parameters, `THRF` and the channel. -/
theorem transformedBack_sequence : (transformedBack s).sequence = denoiseSequence s.config s.thrf s.channel := by
  have hlen : (gateBins (withThreshold (spectrum s))).len.toNat = npow2 s.slen.toNat := by
    simpa using spectrum_len_toNat h
  rw [transformedBack, inverseTransform_sequence (hlen ▸ npow2_eq_zero_or_ispow2 _), gateBins_config, gateBins_sequence,
    withThreshold_sequence, withThreshold_thr, withThreshold_config, spectrum_largestMag h, spectrum_sequence h,
    spectrum_config, spectrum_thrf, denoiseSequence]

theorem transformedBack_bin {i : Nat} (hi : i < s.slen.toNat) :
    (denoiseSequence s.config s.thrf s.channel)[i]? = some ((transformedBack s).bin i) := by
  rw [← transformedBack_sequence h, State.sequence, transformedBack_len_toNat h]
  exact State.bins_getElem? _ (hi.trans_le (le_npow2 _))

theorem channel_transformLength : TransformLength s.channel.length := by
  have hcap : s.cap ≤ 2 ^ 30 := Nat.pow_le_pow_right Nat.two_pos (Nat.le_of_lt_succ s.config.caplog2.isLt)
  rw [State.channel, List.length_map, List.length_range]
  exact ⟨npow2_eq_zero_or_ispow2 _, (npow2_le_two_pow h).trans hcap⟩

/-- No value is NaN or infinite when `QUANT` checks it: each of the two transforms has at most 30 levels, so a sample of at most
`2^31` becomes a value of at most `2^(31 + 120)`. -/
theorem transformedBack_isFinite {i : Nat} (hi : i < s.slen.toNat) : isFinite ((transformedBack s).readRe i) = true := by
  have hall := denoiseSequence_allAtMost s.config s.thrf (channel_transformLength h) (by decide) s.channel_allAtMost
  exact (hall _ (List.mem_of_getElem? (transformedBack_bin h hi))).re.isFinite

/-- The pass raises nothing (45 R130, R131): every length is within `CAP`, the transforms' is padded, and `OLEN` is `SLEN`. -/
theorem denoisePass_eq_ok (hbits : s.bits = 8#32 ∨ s.bits = 16#32 ∨ s.bits = 32#32) :
    denoisePass s = .ok (denoised s) := by
  have hnpow : npow2 s.slen.toNat ≤ s.cap := npow2_le_two_pow h
  have hback := transformedBack_len_toNat h
  have hlen := spectrum_len_toNat h
  have hle : (spectrum s).len.toNat ≤ (spectrum s).cap := by rwa [hlen, spectrum_cap]
  have htoflt : tofltCode s = .ok (convertSamples s) := withinCap_of_le s h _
  have hfftrzp : fftrzpCode (convertSamples s) = .ok (spectrum s) :=
    withinCap_of_le (convertSamples s) (convertSamples_len_le_cap h) _
  have hmagmax : magmaxCode (spectrum s) = .ok ((spectrum s).setMaxmag (spectrum s).largestMag) := magmaxCode_of_le hle
  have hthrset := thrsetCode_setMaxmag (spectrum s)
  have hgate : gateCode (withThreshold (spectrum s)) = .ok (gateBins (withThreshold (spectrum s))) :=
    gateCode_of_le (by simpa using hle)
  have hifft : ifftCode (gateBins (withThreshold (spectrum s))) = .ok (transformedBack s) :=
    ifftCode_of_pow2 (by simpa using hle) (by simpa [hlen] using npow2_eq_zero_or_ispow2 _)
  have htrunc : truncCode (transformedBack s) = .ok ((transformedBack s).setLen (transformedBack s).olen) :=
    truncCode_of_le (by simpa [hback] using hnpow) (by simpa [hback] using le_npow2 _)
  have hquant : quantCode ((transformedBack s).setLen (transformedBack s).olen) = .ok (denoised s) :=
    quantCode_of_isFinite (by simpa using h) (by simpa using hbits)
      fun i hi => transformedBack_isFinite h (by simpa using hi)
  exact bind_eq_ok htoflt hfftrzp |> (bind_eq_ok · hmagmax) |> (bind_eq_ok · hthrset) |> (bind_eq_ok · hgate)
    |> (bind_eq_ok · hifft) |> (bind_eq_ok · htrunc) |> (bind_eq_ok · hquant)

end

/-! What `DENOISE` answers. -/

/-- The two checks before the pass are met (45 R131). -/
def State.DenoiseReady (s : State) : Prop := s.slen.toNat ≤ s.cap ∧ (s.bits = 8#32 ∨ s.bits = 16#32 ∨ s.bits = 32#32)

/-- `DENOISE` records a fault of its two checks, or completes: there is no late fault. -/
theorem exec_denoise_cases (s : State) :
    (¬s.DenoiseReady ∧ ∃ f, exec .denoise s = .next (raise f s)) ∨
      (s.DenoiseReady ∧ exec .denoise s = .next (finish (denoised s))) := by
  rcases denoiseChecks_cases s with ⟨hc, hr⟩ | ⟨-, hw, hr⟩ | ⟨hc, hw, hr⟩
  · exact .inl ⟨fun ⟨hle, _⟩ => absurd hc (not_lt.mpr hle), _, by rw [exec, execDenoise, hr]⟩
  · exact .inl ⟨fun ⟨_, hbits⟩ => by simp [(legalWidth_iff s.bits).mpr hbits] at hw, _, by rw [exec, execDenoise, hr]⟩
  · have hbits := (legalWidth_iff s.bits).mp hw
    refine .inr ⟨⟨hc, hbits⟩, ?_⟩
    rw [exec, execDenoise, hr]
    exact congrArg (completePass · s) (denoisePass_eq_ok hc hbits)

theorem exec_denoise_of_ready {s : State} (h : s.DenoiseReady) : exec .denoise s = .next (finish (denoised s)) :=
  (exec_denoise_cases s).elim (fun hn => absurd h hn.1) And.right

/-- Settles O49: the pass raises nothing, and the commands run one after another end in its end state. -/
theorem denoiseCompletes : Obligations.DenoiseCompletes := by
  intro s hcap hbits
  refine ⟨_, exec_denoise_of_ready ⟨hcap, hbits⟩, ?_, denoisePass_leaves s _ (denoisePass_eq_ok hcap hbits), ?_, ?_, ?_⟩
  · rw [finish_status, denoised_status]
    rfl
  · rw [finish_slen, denoised_slen]
  · rw [finish_len, denoised_len]
  · rw [finish_olen, denoised_olen]

/-- The samples `DENOISE` writes are the re-quantized real parts of the denoised sequence. -/
theorem denoised_readSmp (s : State) (i : Nat) :
    (denoised s).readSmp i =
      if i < s.slen.toNat then requantSample s.config.ties s.bits.toNat ((transformedBack s).readRe i) else s.readSmp i := by
  rw [denoised, requantize_readSmp]
  simp

theorem denoised_bin (s : State) (i : Nat) : (denoised s).bin i = (transformedBack s).bin i := rfl

/-- Blocks with the same parameters, checks, fraction and valid samples have the same denoised sequence. -/
theorem transformedBack_bin_congr {s s' : State} (h : s.slen.toNat ≤ s.cap) (hconfig : s.config = s'.config)
    (hslen : s.slen = s'.slen) (hthrf : s.thrf = s'.thrf) (hsmp : ∀ i, i < s.slen.toNat → s.readSmp i = s'.readSmp i)
    {i : Nat} (hi : i < s.slen.toNat) : (transformedBack s).bin i = (transformedBack s').bin i := by
  have hchannel : s.channel = s'.channel := by
    rw [State.channel, State.channel, ← hslen]
    refine List.map_congr_left fun j _ => ?_
    rw [convertSamples_paddedReal, convertSamples_paddedReal, ← hslen]
    split
    · next hj => rw [hsmp j hj]
    · rfl
  have hcap : s.cap = s'.cap := by rw [State.cap, State.cap, hconfig]
  have hbin := transformedBack_bin h hi
  rw [hconfig, hthrf, hchannel] at hbin
  exact Option.some.inj (hbin.symm.trans (transformedBack_bin (hslen ▸ hcap ▸ h) (hslen ▸ hi)))

/-- Settles O53: both blocks meet the checks or neither does, and the samples written are a function of what they agree on. -/
theorem denoiseIgnoresTheScratchState : Obligations.DenoiseIgnoresTheScratchState := by
  intro s s' t t' hconfig hslen hbits hthrf hsmp ht ht' i hi
  have hready : s.DenoiseReady ↔ s'.DenoiseReady := by
    rw [State.DenoiseReady, State.DenoiseReady, State.cap, State.cap, hconfig, hslen, hbits]
  rcases exec_denoise_cases s with ⟨hn, f, h⟩ | ⟨hr, h⟩ <;> cases h.symm.trans ht
  · rcases exec_denoise_cases s' with ⟨-, f', h'⟩ | ⟨hr', -⟩
    · cases h'.symm.trans ht'
      exact hsmp i hi
    · exact absurd (hready.mpr hr') hn
  · cases (exec_denoise_of_ready (hready.mp hr)).symm.trans ht'
    obtain ⟨hcap, -⟩ := hr
    have hre : (transformedBack s).readRe i = (transformedBack s').readRe i :=
      congrArg Bin.re (transformedBack_bin_congr hcap hconfig hslen hthrf hsmp hi)
    rw [finish_readSmp, finish_readSmp, denoised_readSmp, denoised_readSmp, ← hslen, if_pos hi, if_pos hi, hconfig, hbits,
      hre]

/-- The coefficients from the padded length on are those before the pass. -/
theorem transformedBack_bin_of_le {s : State} (h : s.slen.toNat ≤ s.cap) {i : Nat} (hi : npow2 s.slen.toNat ≤ i) :
    (transformedBack s).bin i = s.bin i := by
  have hlen := spectrum_len_toNat h
  have hpast : ¬i < s.slen.toNat := not_lt.mpr ((le_npow2 _).trans hi)
  have hconvert : (convertSamples s).bin i = s.bin i := by
    rw [State.bin, convertSamples_readRe, if_neg hpast, convertSamples_readIm, State.bin]
  rw [transformedBack, inverseTransform_bin_of_le _ (by simpa [hlen] using hi),
    gateBins_bin_of_kept _ (.inl (by simpa [hlen] using hi)), withThreshold_bin, spectrum,
    padAndTransform_bin_of_le (convertSamples_len_le_cap h) hi, hconvert]

/-- Settles O59: a fault of the checks changes `STATUS` alone, and a pass that completes writes no element past its lengths. -/
theorem denoiseFrame : Obligations.DenoiseFrame := by
  intro s t ht
  rcases exec_denoise_cases s with ⟨-, f, h⟩ | ⟨⟨hcap, -⟩, h⟩ <;> cases h.symm.trans ht
  · exact ⟨rfl, rfl, rfl, rfl, rfl, rfl, rfl, fun _ _ => rfl, fun hdone => by simp at hdone, fun _ => rfl⟩
  · refine ⟨denoised_cmd s, denoised_bits s, denoised_thrf s, denoised_config s, denoised_pending s, denoised_replies s,
      denoised_slen s, fun i hi => ?_, fun _ => ⟨denoised_draws s, fun i hi => ?_⟩, fun hdone => by simp at hdone⟩
    · rw [finish_readSmp, denoised_readSmp, if_neg (not_lt.mpr hi)]
    · have hbin : (finish (denoised s)).bin i = s.bin i := by
        rw [finish_bin, denoised_bin, transformedBack_bin_of_le hcap hi]
      exact ⟨congrArg Bin.re hbin, congrArg Bin.im hbin⟩

end Sys2Proof.Machine
end

section
/-!
SUPPORT. The system commands (45_composite_system.md R133, R134): both answer in one step of the registers, from any state.
-/

namespace Sys2Proof.Machine

theorem exec_nop (s : State) : exec .nop s = .next (finish s) := rfl

theorem exec_srst (s : State) : exec .srst s = .next (softReset s) := rfl

/-- After `SRST` the only register that is not 0 is `CAPLOG2` (70 R157). -/
theorem registerValue_softReset (s : State) (i : Nat) :
    registerValue (softReset s) i = if i = 9 then BitVec.ofNat 64 s.config.caplog2.val else 0#64 := by
  rcases Nat.lt_or_ge i 10 with hi | hi
  · interval_cases i <;> rfl
  · rw [registerValue_of_reserved hi, if_neg (by omega)]

/-- Settles O36: `NOP` is a completion and nothing else. -/
theorem nopCompletes : Obligations.NopCompletes := exec_nop

/-- Settles O37: the registers by `registerValue_softReset`; the memories and the model's own fields are no registers. -/
theorem srstCompletes : Obligations.SrstCompletes := fun s =>
  ⟨_, exec_srst s, registerValue_softReset s, softReset_done s, rfl, rfl, rfl, rfl, rfl, rfl, rfl⟩

/-- Settles O54: `NOP` writes `STATUS`, `SRST` the nine registers that are put back, and neither a memory. -/
theorem systemCommandsFrame : Obligations.SystemCommandsFrame := by
  refine ⟨fun s t h => ?_, fun s t h => ?_⟩
  · cases (exec_nop s).symm.trans h
    rfl
  · cases (exec_srst s).symm.trans h
    exact ⟨by apply State.eq_of_fields <;> simp, softReset_readSmp s, softReset_readRe s, softReset_readIm s⟩

end Sys2Proof.Machine
end

section
/-!
SUPPORT. Exceptions (60_exceptions.md R140 to R150): which check of a command raises, and the code it records with nothing but
`STATUS` changed; an accepted word that is no command's; and what a step can do while a fault is recorded.
-/

namespace Sys2Proof.Machine

/-! Illegal words (60 R141). -/

theorem completeCommand_of_illegal {s : State} (h : ∀ i, s.cmd ≠ encode i) :
    completeCommand s = .next (raise (.illegalCommand s.cmd) s) := by
  rcases completeCommand_cases s with ⟨i, hd, -⟩ | ⟨_, -, hc⟩
  · exact absurd (decode_eq_ok_iff.mp hd) (h i)
  · exact hc

/-- Settles O3: the decoder rejects every word that is no command's, and the completion then raises `IllegalCommand`. -/
theorem illegalWordRecordsCodeOne : Obligations.IllegalWordRecordsCodeOne := fun _ hbusy hillegal =>
  (engineTurn_of_busy hbusy).trans (completeCommand_of_illegal hillegal)

/-! The length check (60 R143). -/

section Checks

variable {s : State} {n : Reg32} {run : State → Except CmdFault State} {f : CmdFault}

theorem withinCap_of_lt (h : s.cap < n.toNat) (run : State → Except CmdFault State) :
    withinCap n s run = .error (.capacity n) := if_pos h

/-- `Capacity` is taken whatever stands behind the check. -/
theorem complete_withinCap_of_lt (h : s.cap < n.toNat) (run : State → Except CmdFault State) :
    complete (withinCap n s run) s = .next (raise (.capacity n) s) :=
  congrArg (complete · s) (withinCap_of_lt h run)

/-- With the length check met, a fault raised behind it is taken in the state the command began in. -/
theorem complete_withinCap_of_error (h : n.toNat ≤ s.cap) (hrun : run s = .error f) :
    complete (withinCap n s run) s = .next (raise f s) :=
  congrArg (complete · s) ((withinCap_of_le s h run).trans hrun)

theorem exec_denoise_of_error (h : denoiseChecks s = .error f) : exec .denoise s = .next (raise f s) := by
  rw [exec, execDenoise, h]

end Checks

/-- Settles O50: the pseudocode of each command begins with the length check, and `DENOISE`'s checks do. -/
theorem capacityIsTheFirstCheck : Obligations.CapacityIsTheFirstCheck := by
  rintro i s (⟨rfl | rfl, hslen⟩ | ⟨hi, hlen⟩)
  · exact complete_withinCap_of_lt (n := s.slen) hslen _
  · exact exec_denoise_of_error (f := .capacity s.slen) (withinCap_of_lt hslen _)
  · rcases hi with rfl | rfl | rfl | rfl | rfl | rfl | rfl | rfl | rfl <;>
      exact complete_withinCap_of_lt (n := s.len) hlen _

/-! The checks behind the length check (60 R142, R144 to R146). -/

section Checks

variable {s : State} (run : State → Except CmdFault State)

theorem powerOfTwoLen_of_not_pow2 (h0 : s.len.toNat ≠ 0) (hp : ispow2 s.len.toNat = false) :
    powerOfTwoLen s run = .error (.lenNotPow2 s.len) := if_pos ⟨h0, hp⟩

theorem widthLegal_of_illegal (h : ¬(s.bits = 8#32 ∨ s.bits = 16#32 ∨ s.bits = 32#32)) :
    widthLegal s run = .error (.badBits s.bits) := if_neg (mt (legalWidth_iff s.bits).mp h)

theorem widthLegal_of_legal (h : s.bits = 8#32 ∨ s.bits = 16#32 ∨ s.bits = 32#32) : widthLegal s run = run s :=
  if_pos ((legalWidth_iff s.bits).mpr h)

/-- The check pass of `QUANT` finds a value that is NaN or infinite when there is one (44 R122). -/
theorem finiteThenRequantize_of_not_isFinite {i : Nat} (hi : i < s.len.toNat) (hfinite : isFinite (s.readRe i) = false) :
    ∃ j, finiteThenRequantize s = .error (.nonFinite j) := by
  have hmem : s.readRe i ∈ s.reals s.len.toNat := List.mem_map_of_mem (List.mem_range.mpr hi)
  cases hfirst : firstNonFinite 0 (s.reals s.len.toNat) with
  | some j => exact ⟨j, by rw [finiteThenRequantize, hfirst]⟩
  | none => exact absurd ((firstNonFinite_eq_none _ 0).mp hfirst _ hmem) (by simp [hfinite])

end Checks

/-- Settles O51: behind the met length check each command's own check raises, before any write. -/
theorem ownChecksRecordTheirCodes : Obligations.OwnChecksRecordTheirCodes := by
  refine ⟨fun i s hi hcap h0 hp => ?_, fun s h8 h16 h32 => ?_, fun s hcap holen => ?_, fun s i hcap hbits hi hfinite => ?_⟩
  · rcases hi with rfl | rfl <;>
      exact complete_withinCap_of_error (f := .lenNotPow2 s.len) hcap (powerOfTwoLen_of_not_pow2 _ h0 hp)
  · have hillegal : ¬(s.bits = 8#32 ∨ s.bits = 16#32 ∨ s.bits = 32#32) := not_or.mpr ⟨h8, not_or.mpr ⟨h16, h32⟩⟩
    exact ⟨fun hcap => complete_withinCap_of_error (f := .badBits s.bits) hcap (widthLegal_of_illegal _ hillegal),
      fun hcap => exec_denoise_of_error (f := .badBits s.bits)
        ((withinCap_of_le s hcap _).trans (widthLegal_of_illegal _ hillegal))⟩
  · exact complete_withinCap_of_error (f := .truncRange s.olen) hcap (if_pos holen)
  · obtain ⟨j, hj⟩ := finiteThenRequantize_of_not_isFinite hi hfinite
    exact complete_withinCap_of_error (f := .nonFinite j) hcap ((widthLegal_of_legal _ hbits).trans hj)

/-! The fault state (60 R149, R150). -/

@[simp] theorem acceptCommand_faultCode (w : CmdWord) (s : State) : (acceptCommand w s).faultCode = s.faultCode := by
  rcases acceptCommand_cases s w with ⟨-, -, ha⟩ | ⟨-, ha⟩ <;> rw [ha]
  exact faultField_statusWord ..

/-- No host access changes the recorded code. -/
theorem performAccess_faultCode {a : Access} {s : State} (h : permitted a s = true) :
    (performAccess a s).faultCode = s.faultCode := by
  rcases performAccess_cases h with ⟨w, ha⟩ | ⟨hk, -⟩
  · rw [ha, acceptCommand_faultCode]
  · exact hk.faultCode

theorem hostAccess_faultCode {a : Access} {s t : State} (h : hostAccess a s = .next t) : t.faultCode = s.faultCode := by
  have hp : permitted a s = true := hostAccess_next_iff.mp ⟨t, h⟩
  cases (hostAccess_of_permitted hp).symm.trans h
  exact performAccess_faultCode hp

theorem State.Inv.cmd_eq_srst {s : State} (h : s.Inv) (hbusy : s.busy = true) (hfault : s.faultCode ≠ 0#8) :
    s.cmd = encode .srst := by
  obtain ⟨-, -, hsticky⟩ := h
  exact hsticky hbusy hfault

/-- In the fault state the engine waits, or completes `SRST`. -/
theorem engineTurn_of_faulted {s : State} (hinv : s.Inv) (hfault : s.faultCode ≠ 0#8) :
    engineTurn s = .next s ∨ (s.busy = true ∧ s.cmd = encode .srst ∧ engineTurn s = .next (softReset s)) := by
  cases hb : s.busy
  · exact .inl (engineTurn_of_idle hb)
  · have hcmd := hinv.cmd_eq_srst hb hfault
    exact .inr ⟨rfl, hcmd, (engineTurn_of_decode hb (decode_eq_ok_iff.mpr hcmd)).trans (exec_srst s)⟩

theorem engineTurn_faultCode {s t : State} (hinv : s.Inv) (hfault : s.faultCode ≠ 0#8) (h : engineTurn s = .next t) :
    t.faultCode = s.faultCode ∨ (s.busy = true ∧ s.cmd = encode .srst ∧ t.status = 0#16) := by
  rcases engineTurn_of_faulted hinv hfault with he | ⟨hb, hcmd, he⟩ <;> cases he.symm.trans h
  · exact .inl rfl
  · exact .inr ⟨hb, hcmd, rfl⟩

/-- Settles O18: of the events that are not a reset only `SRST`'s completion changes the code, and where the code is kept the
invariant of the next state leaves no other command in progress. -/
theorem faultIsSticky : Obligations.FaultIsSticky := by
  intro s t hinv hfault hreset hstep
  have hcode : t.faultCode = s.faultCode ∨ (s.busy = true ∧ s.cmd = encode .srst ∧ t.status = 0#16) := by
    rcases step_cases s with ⟨-, hs⟩ | ⟨rest, -, hs⟩ | ⟨a, rest, -, hs⟩ | ⟨rest, hp, -⟩
    · exact engineTurn_faultCode hinv hfault (hs.symm.trans hstep)
    · exact engineTurn_faultCode (s := s.setPending rest) hinv hfault (hs.symm.trans hstep)
    · exact .inl (hostAccess_faultCode (s := s.setPending rest) (hs.symm.trans hstep))
    · exact absurd hp (hreset rest)
  refine hcode.imp_left fun hkept => ⟨hkept, fun hbusy => ?_⟩
  exact (stepKeepsInvariant s t hinv hstep).cmd_eq_srst hbusy (hkept ▸ hfault)

end Sys2Proof.Machine
end

section
/-!
SUPPORT. Reset and hazards (70_reset_and_hazards.md R156 to R158, R163): what a hardware reset leaves, the state right
after it, and the poll of `STATUS` after an acceptance.
-/

namespace Sys2Proof.Machine

/-! The hardware reset. -/

/-- The registers after a hardware reset are those `SRST` leaves (70 R157). -/
theorem registerValue_hardwareReset (s : State) (i : Nat) :
    registerValue (hardwareReset s) i = if i = 9 then BitVec.ofNat 64 s.config.caplog2.val else 0#64 :=
  registerValue_softReset s i

@[simp] theorem hardwareReset_readSmp (s : State) (i : Nat) : (hardwareReset s).readSmp i = Config.freeSmp s.draws i := rfl
@[simp] theorem hardwareReset_readRe (s : State) (i : Nat) : (hardwareReset s).readRe i = Config.freeRe s.draws i := rfl
@[simp] theorem hardwareReset_readIm (s : State) (i : Nat) : (hardwareReset s).readIm i = Config.freeIm s.draws i := rfl

theorem step_of_pending_reset {s : State} {rest : List Event} (h : s.pending = .reset :: rest) :
    step s = .next (hardwareReset (s.setPending rest)) := by
  simp [step, h, takeEvent]

/-- Settles O12: the step is `hardwareReset` of the state without the event, whatever command was in progress. -/
theorem resetEventFromAnyState : Obligations.ResetEventFromAnyState := fun s rest hp =>
  ⟨_, step_of_pending_reset hp, registerValue_hardwareReset (s.setPending rest),
    fun i => ⟨hardwareReset_readSmp _ i, hardwareReset_readRe _ i, hardwareReset_readIm _ i⟩, rfl, rfl, rfl, rfl⟩

/-! The state right after reset. -/

/-- The reset state of the parameters `c` is what a hardware reset makes of a block with these parameters. -/
theorem resetWith_eq_hardwareReset (c : Config) : ∃ s : State, s.config = c ∧ State.resetWith c = hardwareReset s :=
  ⟨{ State.resetWith c with draws := 0 }, rfl, rfl⟩

/-- Settles O13: the reset state is idle with no fault recorded, so that a write of `CMD` is an acceptance. -/
theorem registersAfterReset : Obligations.RegistersAfterReset := by
  intro c
  obtain ⟨s, rfl, hs⟩ := resetWith_eq_hardwareReset c
  rw [hs]
  refine ⟨registerValue_hardwareReset s, hardwareReset_busy s, hardwareReset_faultCode s, fun v => ?_⟩
  obtain ⟨-, -, haccepts⟩ := commandWriteIsAcceptance (hardwareReset s) v
  obtain ⟨t, ht, hcmd, hbusy, -⟩ := haccepts (hardwareReset_busy s) (.inl (hardwareReset_faultCode s))
  exact ⟨t, ht, hcmd, hbusy⟩

theorem resetWith_inv (c : Config) : (State.resetWith c).Inv := by
  obtain ⟨s, -, hs⟩ := resetWith_eq_hardwareReset c
  exact hs ▸ hardwareReset_inv s

/-- Settles O15: the invariant holds after any hardware reset, and `State.reset` is the reset state of `defaultConfig`. -/
theorem resetMeetsInvariant : Obligations.ResetMeetsInvariant := ⟨resetWith_inv, rfl⟩

/-! The fields of the value a read of `STATUS` returns (10 R22). -/

theorem registerValue_status_busy (s : State) : (registerValue s 1).getLsbD 0 = s.busy := rfl

theorem registerValue_status_done (s : State) : (registerValue s 1).getLsbD 1 = s.done := rfl

theorem registerValue_status_reserved (s : State) : (registerValue s 1).extractLsb' 2 6 = s.status.extractLsb' 2 6 :=
  BitVec.extractLsb'_setWidth_of_le (by decide)

theorem registerValue_status_faultCode (s : State) : (registerValue s 1).extractLsb' 8 8 = s.faultCode :=
  BitVec.extractLsb'_setWidth_of_le (by decide)

theorem registerValue_status_high (s : State) : (registerValue s 1).extractLsb' 16 48 = 0#48 := by
  ext i hi
  simp [registerValue]

/-! The poll of `STATUS` after an acceptance. -/

/-- `STATUS` can be read at any time (20 R45). -/
theorem hostAccess_readStatus (s : State) :
    hostAccess (.readReg 1) s = .next { s with replies := s.replies ++ [.word64 (registerValue s 1)] } :=
  hostAccess_of_permitted (permitted_iff.mpr ⟨rfl, .inr rfl⟩)

@[simp] theorem acceptCommand_replies (w : CmdWord) (s : State) : (acceptCommand w s).replies = s.replies := by
  rcases acceptCommand_cases s w with ⟨-, -, ha⟩ | ⟨-, ha⟩ <;> rw [ha]
  rfl

theorem acceptCommand_status_of_accepted {s : State} {w : CmdWord} (h : s.faultCode = 0#8 ∨ w = 0x00000001#32) :
    (acceptCommand w s).status = statusWord true false s.faultCode := by
  rw [acceptCommand_eq_of_accepted h, State.setStatus_status]

/-- Settles O11: the poll is answered while busy, and its fields are those of the status word that acceptance wrote. -/
theorem statusPollShowsBusy : Obligations.StatusPollShowsBusy := by
  intro s w _ haccepted
  have hstatus := acceptCommand_status_of_accepted haccepted
  refine ⟨registerValue (acceptCommand w s) 1, ?_, ?_, ?_, ?_, ?_, registerValue_status_high _⟩
  · rw [hostAccess_readStatus, acceptCommand_replies]
  · rw [registerValue_status_busy, State.busy, hstatus, busyBit_statusWord]
  · rw [registerValue_status_done, State.done, hstatus, doneBit_statusWord]
  · rw [registerValue_status_reserved, hstatus, statusWord_reserved]
  · rw [registerValue_status_faultCode, acceptCommand_faultCode]

end Sys2Proof.Machine
end
